-- ==== Sys2Proof/Word.lean ====
section
/-! DEFINITION. The one word type of the block: an unsigned byte (00_scope.md R11). -/

namespace Sys2Proof

/-- A byte is an unsigned 8-bit value in 0..255 (R11). Nothing in the block is wider than a byte (R61). -/
abbrev Byte := BitVec 8

end Sys2Proof
end

