-- ==== Sys2Proof/Config.lean ====
section
/-! DEFINITION. The fixed constants of 00_scope.md R7 and the implementation parameters of R8.
The spec gives no value of the open parameters, so each is an opaque constant here: no proof can see what it is. -/

namespace Sys2Proof

/-- The settle classes of R8 and 42_transaction.md R181. -/
inductive SettleClass where
  | none
  | write
  | reset
  deriving DecidableEq, Repr, Inhabited

/-- The host-side byte order of a 2-byte register value (20_memory.md R62). The block never reads it. -/
inductive ByteOrder where
  | little
  | big
  deriving DecidableEq, Repr, Inhabited

/-- The implementation parameters (00_scope.md R8, 92_eei_decisions.md "Parameters left open").
They are fixed for a model instance and no step changes them (10_state.md R37). -/
structure Params where
  /-- `TIMEOUT_TICKS`: the one receive deadline of an operation, in ticks. -/
  timeoutTicks : Nat
  /-- `SETTLE_WRITE_TICKS`. -/
  settleWriteTicks : Nat
  /-- `SETTLE_RESET_TICKS`. -/
  settleResetTicks : Nat
  /-- `SETTLE_CLASS`, as its graph: a code that no pair lists has class `NONE`. -/
  settleClass : List (Byte × SettleClass)
  /-- `RXQ_CAP`: the capacity of the inbound queue; `none` is unbounded. -/
  rxqCap : Option Nat
  /-- `TICK_PERIOD`: the length of one tick, in microseconds; no rule of the block reads it. -/
  tickPeriod : Nat
  /-- `MAX_RETRY`: no rule reads it (R9). -/
  maxRetry : Nat
  /-- `REG_BYTE_ORDER`: host side; no rule of the block reads it (R62). -/
  regByteOrder : ByteOrder
  deriving DecidableEq, Repr

/-- R8 and 70_reset_and_hazards.md R262: the deadline is at least one tick, a tick has a positive length. -/
def Params.admissible (p : Params) : Bool := decide (1 ≤ p.timeoutTicks) && decide (1 ≤ p.tickPeriod)

namespace Config

/-- `HDR0` of R7. -/
def hdr0 : Byte := 0xFF
/-- `HDR1` of R7. -/
def hdr1 : Byte := 0xFF
/-- `MIN_FRAME` of R7. -/
def minFrame : Nat := 6
/-- `MAX_ID` of R7: the largest physical device id. -/
def maxId : Nat := 253
/-- `BROADCAST_ID` of R7. -/
def broadcastId : Byte := 0xFE
/-- `LEN_OVERHEAD` of R7. -/
def lenOverhead : Nat := 2
/-- `FRAME_OVERHEAD` of R7. -/
def frameOverhead : Nat := 4
/-- `MAX_PARAMS` of R7. -/
def maxParams : Nat := 253
/-- `MAX_FRAME` of R7. -/
def maxFrame : Nat := 259

/-- `TIMEOUT_TICKS - 1` of the machine that reset describes: OPEN (92_eei_decisions.md D4), so no value is given here. -/
opaque timeoutTicksLessOne : Nat
/-- `SETTLE_WRITE_TICKS` of the machine that reset describes: OPEN (D4, D15). -/
opaque settleWriteTicks : Nat
/-- `SETTLE_RESET_TICKS` of the machine that reset describes: OPEN (D4, D15). -/
opaque settleResetTicks : Nat
/-- `TICK_PERIOD - 1` of the machine that reset describes: OPEN (D4). -/
opaque tickPeriodLessOne : Nat
/-- `MAX_RETRY` of the machine that reset describes: OPEN (R9). -/
opaque maxRetry : Nat
/-- `REG_BYTE_ORDER` of the machine that reset describes: OPEN (D23). -/
opaque regByteOrder : ByteOrder

/-- The default of `SETTLE_CLASS`, row by row as 42_transaction.md R181 lists it. -/
def defaultSettleClass : List (Byte × SettleClass) :=
  [(0x01, .none), (0x02, .none), (0x03, .write), (0x04, .write), (0x05, .write),
   (0x06, .reset), (0x08, .reset), (0x82, .none), (0x83, .write)]

/-- The parameters of the machine that reset describes: the two defaults the spec decides
(`SETTLE_CLASS`, R181; `RXQ_CAP` unbounded, D20) and the open values. -/
def params : Params :=
  { timeoutTicks := timeoutTicksLessOne + 1
    settleWriteTicks := settleWriteTicks
    settleResetTicks := settleResetTicks
    settleClass := defaultSettleClass
    rxqCap := none
    tickPeriod := tickPeriodLessOne + 1
    maxRetry := maxRetry
    regByteOrder := regByteOrder }

end Config

end Sys2Proof
end

