-- ==== Sys2Proof/Syntax.lean ====
section
/-! DEFINITION. The terms of the block: the nine wire instructions (30_encoding.md R79, opcode_table.json),
the five host commands (R87, R88), the decoded frame (40_codec.md R103), and the moves of the labelled
transition system (00_scope.md R14). -/

namespace Sys2Proof

/-- The wire instructions, one constructor per row of the opcode table. `id` is the target id and `params` the
parameter bytes, which the block copies and never interprets (43_wire_instructions.md). The host command that
sends each is the one R79's table names: TRANSACT for the first seven, SEND for the last two. -/
inductive Instr where
  /-- PING, code `0x01` (R201). -/
  | ping (id : Byte) (params : List Byte)
  /-- READ, code `0x02` (R202). -/
  | read (id : Byte) (params : List Byte)
  /-- WRITE, code `0x03` (R203). -/
  | write (id : Byte) (params : List Byte)
  /-- REG_WRITE, code `0x04` (R204). -/
  | regWrite (id : Byte) (params : List Byte)
  /-- ACTION, code `0x05` (R205). -/
  | action (id : Byte) (params : List Byte)
  /-- FACTORY_RESET, code `0x06` (R206). -/
  | factoryReset (id : Byte) (params : List Byte)
  /-- REBOOT, code `0x08` (R207). -/
  | reboot (id : Byte) (params : List Byte)
  /-- SYNC_READ, code `0x82` (R208). -/
  | syncRead (id : Byte) (params : List Byte)
  /-- SYNC_WRITE, code `0x83` (R209). -/
  | syncWrite (id : Byte) (params : List Byte)
  deriving DecidableEq, Repr

/-- The two host commands that transmit a frame (R79's column "host command that may send it"). -/
inductive Sender where
  | transact
  | send
  deriving DecidableEq, Repr

/-- R79: the host command that may send an instruction. -/
def Instr.sender : Instr → Sender
  | .ping _ _ => .transact
  | .read _ _ => .transact
  | .write _ _ => .transact
  | .regWrite _ _ => .transact
  | .action _ _ => .transact
  | .factoryReset _ _ => .transact
  | .reboot _ _ => .transact
  | .syncRead _ _ => .send
  | .syncWrite _ _ => .send

/-- The target id an instruction carries. -/
def Instr.id : Instr → Byte
  | .ping i _ => i
  | .read i _ => i
  | .write i _ => i
  | .regWrite i _ => i
  | .action i _ => i
  | .factoryReset i _ => i
  | .reboot i _ => i
  | .syncRead i _ => i
  | .syncWrite i _ => i

/-- The parameter bytes an instruction carries. -/
def Instr.params : Instr → List Byte
  | .ping _ p => p
  | .read _ p => p
  | .write _ p => p
  | .regWrite _ p => p
  | .action _ p => p
  | .factoryReset _ p => p
  | .reboot _ p => p
  | .syncRead _ p => p
  | .syncWrite _ p => p

/-- The host commands with their operands (R87). They have no numeric encoding (R88): a command is a term.
`instr` is the operand as the host gives it, any byte, assigned or not (R80). -/
inductive HostCmd where
  | connect
  | disconnect
  | transact (id instr : Byte) (params : List Byte)
  | send (id instr : Byte) (params : List Byte)
  | receive (id : Byte)
  deriving DecidableEq, Repr

/-- One step of the labelled transition system (R14): the host offers a command, the transport's receiver
delivers one byte (20_memory.md R55), the clock delivers one tick (41_synchronizer.md R141), the block takes one
internal step, or reset is asserted (70_reset_and_hazards.md R260). -/
inductive Move where
  | command (c : HostCmd)
  | rx (b : Byte)
  | tick
  | internal
  | reset
  deriving DecidableEq, Repr

/-- A decoded frame (R103). `err` is frame byte 4, the response's error bitmask. -/
structure Frame where
  id : Byte
  length : Byte
  err : Byte
  params : List Byte
  checksum : Byte
  deriving DecidableEq, Repr

/-- The reason field of a result: 60_exceptions.md R234 (`InvalidResponse`) and R236 (`InvalidParameter`);
`none` is code 0, the reason of every other kind (92_eei_decisions.md D28). -/
inductive Reason where
  | none
  | short
  | header
  | length
  | idMismatch
  | badId
  | badInstr
  | tooManyParams
  deriving DecidableEq, Repr

end Sys2Proof
end

