-- ==== Sys2Proof/WellFormed.lean ====
section
/-! DEFINITION. Which terms the encoding admits (30_encoding.md R72, R79, R87). A term that fails a check still has
its meaning in the machine: the command ends with `InvalidParameter` (42_transaction.md R162). -/

namespace Sys2Proof

/-- R51 and R87: an instruction TRANSACT sends targets a unicast id 0..253. -/
def unicastIdOk (id : Byte) : Bool := decide (id.toNat ≤ Config.maxId)

/-- R87: an instruction SEND sends targets the broadcast id only. -/
def broadcastIdOk (id : Byte) : Bool := decide (id = Config.broadcastId)

/-- R72: `LEN` is one byte, so a request has at most 253 parameters. -/
def paramCountOk (params : List Byte) : Bool := decide (params.length ≤ Config.maxParams)

/-- The id check of an instruction by the command that sends it. -/
def Instr.idOk (i : Instr) : Bool :=
  match i.sender with
  | .transact => unicastIdOk i.id
  | .send => broadcastIdOk i.id

/-- A wire instruction that the opcode table's legal values admit. -/
def Instr.wellFormed (i : Instr) : Bool := i.idOk && paramCountOk i.params

end Sys2Proof
end

