-- ==== Sys2Proof/Decode.lean ====
section
/-! DEFINITION. The codec's bit-exact layer (30_encoding.md, 40_codec.md): checksum, frame encoding and decoding, the
opcode table, and the decoder and encoder of request frames. -/

namespace Sys2Proof

/-- R12: `xs[i]`, counting from 0; 0 past the end, where no rule reads. -/
def byteAt (xs : List Byte) (i : Nat) : Byte := xs.getD i 0

/-- R12: `xs[i..j]`, the sub-list from index `i` to index `j` inclusive, empty when `j < i`. -/
def slice (xs : List Byte) (i j : Nat) : List Byte := (xs.drop i).take (j + 1 - i)

/-- R12: `sum(xs)`, the sum of the bytes as a natural number, not truncated. -/
def byteSum (xs : List Byte) : Nat := (xs.map BitVec.toNat).sum

/-- R100: `Checksum(body) = 0xFF - (sum(body) mod 256)`. -/
def checksum (body : List Byte) : Byte := BitVec.ofNat 8 (0xFF - byteSum body % 256)

/-- R72: the length byte of a frame with `n` parameters, `2 + n`; computed, never supplied. DESIGN CHOICE (log 19): for more
than 253 parameters, where R102 leaves `Encode` undefined and no rule needs it, the sum wraps modulo 256. -/
def lenByte (n : Nat) : Byte := BitVec.ofNat 8 (n + Config.lenOverhead)

/-- The bytes a request's checksum covers: id, length, instruction and parameters (R76, R101). -/
def frameBody (id x : Byte) (params : List Byte) : List Byte := [id, lenByte params.length, x] ++ params

/-- R101: `Encode(id, instr, params)`; for more than 253 parameters its result is the model's choice (log 19). -/
def encodeFrame (id x : Byte) (params : List Byte) : List Byte :=
  [Config.hdr0, Config.hdr1] ++ frameBody id x params ++ [checksum (frameBody id x params)]

/-- What `Decode` returns (R104). -/
inductive FrameOutcome where
  | frame (f : Frame)
  | invalidResponse (r : Reason)
  | checksumError (id : Byte)
  deriving DecidableEq, Repr

/-- R104: `Decode(b)`; the first check that fails decides (R105, R106, R107, R108), else the record of R109. -/
def decodeFrame (b : List Byte) : FrameOutcome :=
  if b.length < Config.minFrame then .invalidResponse .short
  else if byteAt b 0 ≠ Config.hdr0 ∨ byteAt b 1 ≠ Config.hdr1 then .invalidResponse .header
  else if b.length ≠ (byteAt b 3).toNat + Config.frameOverhead then .invalidResponse .length
  else if byteAt b (b.length - 1) ≠ checksum (slice b 2 (b.length - 2)) then .checksumError (byteAt b 2)
  else .frame
    { id := byteAt b 2
      length := byteAt b 3
      err := byteAt b 4
      params := slice b 5 (b.length - 2)
      checksum := byteAt b (b.length - 1) }

/-- One row of the opcode table: `match` and `mask` apply to frame byte 4. -/
structure OpRow where
  code : Byte
  mask : Byte
  build : Byte → List Byte → Instr

/-- R79 and opcode_table.json, row by row. -/
def opcodeTable : List OpRow :=
  [⟨0x01, 0xFF, .ping⟩, ⟨0x02, 0xFF, .read⟩, ⟨0x03, 0xFF, .write⟩, ⟨0x04, 0xFF, .regWrite⟩, ⟨0x05, 0xFF, .action⟩,
   ⟨0x06, 0xFF, .factoryReset⟩, ⟨0x08, 0xFF, .reboot⟩, ⟨0x82, 0xFF, .syncRead⟩, ⟨0x83, 0xFF, .syncWrite⟩]

/-- The instruction a code byte names, with its operands; none for the codes R80 leaves unassigned. -/
def instrOf (code id : Byte) (params : List Byte) : Option Instr :=
  (opcodeTable.find? fun r => code &&& r.mask == r.code).map fun r => r.build id params

/-- R79: the instruction code of an instruction. -/
def opcode : Instr → Byte
  | .ping _ _ => 0x01
  | .read _ _ => 0x02
  | .write _ _ => 0x03
  | .regWrite _ _ => 0x04
  | .action _ _ => 0x05
  | .factoryReset _ _ => 0x06
  | .reboot _ _ => 0x08
  | .syncRead _ _ => 0x82
  | .syncWrite _ _ => 0x83

/-- Why a byte list is not the request frame of a well-formed instruction. -/
inductive DecodeReject where
  /-- Fewer than 6 bytes (R78). -/
  | short
  /-- Bytes 0 and 1 are not `FF FF` (R71). -/
  | header
  /-- The byte count is not `LEN + 4` (R77). -/
  | length
  /-- The last byte is not the checksum of the body (R76). -/
  | checksum
  /-- Byte 4 is an unassigned code (R80). -/
  | unassigned (code : Byte)
  /-- Byte 2 is not a legal target of the instruction (R51, R79). -/
  | illegalId (id : Byte)
  deriving DecidableEq, Repr

/-- The decoder of request frames: R104's checks, then the code of byte 4 (R79), then the id class of byte 2 (R51). -/
def decode (b : List Byte) : Except DecodeReject Instr :=
  match decodeFrame b with
  | .invalidResponse .short => .error .short
  | .invalidResponse .header => .error .header
  | .invalidResponse _ => .error .length
  | .checksumError _ => .error .checksum
  | .frame f =>
    match instrOf f.err f.id f.params with
    | none => .error (.unassigned f.err)
    | some i => if i.idOk then .ok i else .error (.illegalId f.id)

/-- The encoder: the request frame of an instruction (R70, R101). -/
def encode (i : Instr) : List Byte := encodeFrame i.id (opcode i) i.params

/-- The wire image of a table word. The opcode table gives a row the 8 bits of frame byte 4 and nothing else, so bits
7..0 of `w` are that byte; the header, the length and the checksum are what the format computes (R70, R72, R76), there
are no parameters, and the id is the row's one legal value `0xFE` for the two codes that have one, else 0. -/
def tableFrame (w : Nat) : List Byte :=
  let code := BitVec.ofNat 8 w
  let id : Byte := if code = 0x82 ∨ code = 0x83 then Config.broadcastId else 0x00
  encodeFrame id code []

/-- What the decoder reads from a table word; every row of the table has 8 bits. -/
def decodeTableWord (nbits w : Nat) : Option Instr :=
  if nbits = 8 then (decode (tableFrame w)).toOption else none

/-- The host command whose operands are those of the request frame `b`: SEND for the codes SEND sends, TRANSACT for
every other (R79, R87). -/
def requestCommand (b : List Byte) : HostCmd :=
  let code := byteAt b 4
  let params := slice b 5 (b.length - 2)
  if code = 0x82 ∨ code = 0x83 then .send (byteAt b 2) code params else .transact (byteAt b 2) code params

end Sys2Proof
end

