-- ==== Sys2Proof/Machine/State.lean ====
section
/-! DEFINITION. The architectural state of the block (10_state.md R20 to R34), its reset value (R41), and the ways a step
can stop. -/

namespace Sys2Proof.Machine

open Sys2Proof

/-- The state register `st` (R20); its numeric codes are in Machine/Flags.lean. -/
inductive Phase where
  | idle
  | awaitHeader
  | awaitLength
  | awaitPayload
  | complete
  | timedOut
  | failed
  | settling
  deriving DecidableEq, Repr

/-- The kind of the command in progress, `mode` (R24). -/
inductive Mode where
  | none
  | transact
  | send
  | receive
  deriving DecidableEq, Repr

/-- The result kinds (60_exceptions.md R230). -/
inductive Kind where
  | none
  | ok
  | connectionLost
  | timeout
  | checksumError
  | invalidResponse
  | hardwareError
  | invalidParameter
  deriving DecidableEq, Repr

/-- The result record of a command (R31, 60_exceptions.md R237). -/
structure Result where
  kind : Kind
  id : Byte
  reason : Reason
  errbits : Byte
  frame : Option Frame
  deriving DecidableEq, Repr

/-- One event of the outbound history `txh` (R34). -/
inductive TxEvent where
  | write (bytes : List Byte)
  | flush
  deriving DecidableEq, Repr

/-- Everything the spec gives the block, and two fields of the model's own: `cfg`, the parameters the model takes as
arguments (R8, R37), which no step writes, and `moves`, the environment's coming moves, oldest first (R14, R40). -/
structure State where
  /-- R20. -/
  st : Phase
  /-- R21. -/
  connected : Bool
  /-- R22: the inbound byte queue, the oldest byte at index 0. -/
  rxq : List Byte
  /-- R23. -/
  rxOverflow : Bool
  /-- R24. -/
  mode : Mode
  /-- R25. -/
  expId : Byte
  /-- R26. -/
  reqInstr : Byte
  /-- R27: 9 bits wide. -/
  totalLen : BitVec 9
  /-- R28. -/
  elapsed : Nat
  /-- R29. -/
  settle : Nat
  /-- R30. -/
  frameBuf : List Byte
  /-- R31. -/
  result : Result
  /-- R32. -/
  done : Bool
  /-- R34: the outbound history, an observation the block never reads. -/
  txh : List TxEvent
  /-- The model's own: the parameters of R8. -/
  cfg : Params
  /-- The model's own: which step comes next (R14). -/
  moves : List Move
  deriving DecidableEq, Repr

/-- A step that stops the machine. The block has none: a command that cannot complete ends with a failure RESULT, in a
next state (60_exceptions.md R240). So this type has no constructor, nothing raises it, and that is safe. -/
inductive Fault where
  deriving DecidableEq, Repr

/-- A step without a meaning. -/
inductive Refusal where
  /-- Raised by exec's arm of an instruction that has no meaning yet; no arm is left that raises it. Safe. -/
  | notModelled (mnemonic : String)
  deriving DecidableEq, Repr

/-- The result record after reset (R41). -/
def Result.initial : Result := { kind := .none, id := 0, reason := .none, errbits := 0, frame := none }

/-- The machine after reset: every element at its value in R41 (70_reset_and_hazards.md R260); the parameters are
Config's, and the environment has no move listed. -/
def State.reset : State :=
  { st := .idle
    connected := false
    rxq := []
    rxOverflow := false
    mode := .none
    expId := 0
    reqInstr := 0
    totalLen := 0
    elapsed := 0
    settle := 0
    frameBuf := []
    result := Result.initial
    done := false
    txh := []
    cfg := Config.params
    moves := [] }

end Sys2Proof.Machine
end

