-- ==== Sys2Proof/Machine/Flags.lean ====
section
/-! DEFINITION. The numeric codes of the state elements, the derived flag `ready`, the settle class of a code, and the
conditions an error byte names. -/

namespace Sys2Proof.Machine

open Sys2Proof

/-- R20: the 3-bit value of `st`. -/
def Phase.code : Phase → BitVec 3
  | .idle => 0
  | .awaitHeader => 1
  | .awaitLength => 2
  | .awaitPayload => 3
  | .complete => 4
  | .timedOut => 5
  | .failed => 6
  | .settling => 7

/-- R24: the 2-bit value of `mode`. -/
def Mode.code : Mode → BitVec 2
  | .none => 0
  | .transact => 1
  | .send => 2
  | .receive => 3

/-- R230: the 3-bit code of a result kind, the block's condition code (R38). -/
def Kind.code : Kind → BitVec 3
  | .none => 0
  | .ok => 1
  | .connectionLost => 2
  | .timeout => 3
  | .checksumError => 4
  | .invalidResponse => 5
  | .hardwareError => 6
  | .invalidParameter => 7

/-- R234 and R236: the 3-bit reason code; 0 where no reason applies (R31). -/
def reasonCode : Reason → BitVec 3
  | .none => 0
  | .short => 1
  | .header => 2
  | .length => 3
  | .idMismatch => 4
  | .badId => 5
  | .badInstr => 6
  | .tooManyParams => 7

/-- R33: `ready`, derived from `st` and not stored. -/
def ready (s : State) : Bool := decide (s.st = .idle)

/-- R20: states 1, 2 and 3 are the awaiting states. -/
def Phase.awaiting : Phase → Bool
  | .idle => false
  | .awaitHeader => true
  | .awaitLength => true
  | .awaitPayload => true
  | .complete => false
  | .timedOut => false
  | .failed => false
  | .settling => false

/-- R8 and R181: `SETTLE_CLASS` of a code; a code the parameter does not list has class `NONE`. -/
def settleClassOf (p : Params) (code : Byte) : SettleClass := (p.settleClass.lookup code).getD .none

/-- R180: the settle delay of a class, in ticks. -/
def classTicks (p : Params) : SettleClass → Nat
  | .none => 0
  | .write => p.settleWriteTicks
  | .reset => p.settleResetTicks

/-- R180: the settle delay after a command: none after RECEIVE, else by the class of the request's code. -/
def settleTicks (p : Params) (m : Mode) (code : Byte) : Nat :=
  classTicks p (if m = .receive then .none else settleClassOf p code)

/-- The conditions of the response error byte (30_encoding.md R81; bit 7 is R82's). -/
inductive Condition where
  | voltage
  | angle
  | overheat
  | range
  | checksum
  | overload
  | instruction
  | unnamedBit7
  deriving DecidableEq, Repr

/-- R111: `NAME`, by bit number. -/
def conditionNames : List Condition :=
  [.voltage, .angle, .overheat, .range, .checksum, .overload, .instruction, .unnamedBit7]

/-- R81: the bit of a condition. -/
def Condition.bit : Condition → Nat
  | .voltage => 0
  | .angle => 1
  | .overheat => 2
  | .range => 3
  | .checksum => 4
  | .overload => 5
  | .instruction => 6
  | .unnamedBit7 => 7

/-- R111: `Conditions(e)`, the names of the set bits in ascending bit order. -/
def conditions (e : Byte) : List Condition := conditionNames.filter fun c => e.getLsbD c.bit

end Sys2Proof.Machine
end

