-- ==== Sys2Proof/Machine/Operands.lean ====
section
/-! DEFINITION. The operands of the host commands: the device id space (20_memory.md R51), the instruction sets each
command admits, and the operand and connection checks (42_transaction.md R162). -/

namespace Sys2Proof.Machine

open Sys2Proof

/-- R51: the classes of the device id space. -/
inductive IdClass where
  | unicast
  | broadcast
  | invalid
  deriving DecidableEq, Repr

/-- R51: 0..253 unicast, 254 broadcast, 255 invalid. -/
def idClass (id : Byte) : IdClass :=
  if id.toNat ≤ Config.maxId then .unicast else if id = Config.broadcastId then .broadcast else .invalid

/-- R162: `U7`, the codes TRANSACT may send. -/
def unicastCodes : List Byte := [0x01, 0x02, 0x03, 0x04, 0x05, 0x06, 0x08]

/-- R162: `G2`, the codes SEND may send. -/
def groupCodes : List Byte := [0x82, 0x83]

/-- A failure result; the fields a rule does not name are 0 or absent (R162, R178, R237). -/
def Result.failure (kind : Kind) (id : Byte) (reason : Reason) : Result :=
  { kind := kind, id := id, reason := reason, errbits := 0, frame := none }

/-- An `OK` result without a frame (R163, R164, R170). -/
def Result.okay (id : Byte) : Result := { kind := .ok, id := id, reason := .none, errbits := 0, frame := none }

/-- R162: the last check of every command that needs the transport. -/
def checkConnection (connected : Bool) (id : Byte) : Option Result :=
  if connected then none else some (.failure .connectionLost id .none)

/-- R162: `Check(TRANSACT id instr params)`; `none` is Pass, and the first check that fails decides. -/
def checkTransact (connected : Bool) (id instr : Byte) (params : List Byte) : Option Result :=
  if Config.maxId < id.toNat then some (.failure .invalidParameter id .badId)
  else if instr ∉ unicastCodes then some (.failure .invalidParameter id .badInstr)
  else if Config.maxParams < params.length then some (.failure .invalidParameter id .tooManyParams)
  else checkConnection connected id

/-- R162: `Check(SEND id instr params)`. -/
def checkSend (connected : Bool) (id instr : Byte) (params : List Byte) : Option Result :=
  if id ≠ Config.broadcastId then some (.failure .invalidParameter id .badId)
  else if instr ∉ groupCodes then some (.failure .invalidParameter id .badInstr)
  else if Config.maxParams < params.length then some (.failure .invalidParameter id .tooManyParams)
  else checkConnection connected id

/-- R162: `Check(RECEIVE id)`. -/
def checkReceive (connected : Bool) (id : Byte) : Option Result :=
  if Config.maxId < id.toNat then some (.failure .invalidParameter id .badId)
  else checkConnection connected id

end Sys2Proof.Machine
end

