-- ==== Sys2Proof/Machine/Ops.lean ====
section
/-! DEFINITION. The shared operations: the stream primitives (20_memory.md R55 to R60), acceptance, the posting of a result
and the settle delay (42_transaction.md R160, R161, R180; these are the block's failure entry, 60_exceptions.md R240), and
the tick (41_synchronizer.md R141). -/

namespace Sys2Proof.Machine

open Sys2Proof

/-- R55: there is room for one more byte in the inbound queue. -/
def rxqHasRoom (s : State) : Bool :=
  match s.cfg.rxqCap with
  | none => true
  | some cap => decide (s.rxq.length < cap)

/-- R55: `RxPush(b)`. The producer has this step only while `connected = 1`; with the transport closed the move is
not enabled and changes nothing. -/
def rxPush (b : Byte) (s : State) : State :=
  if s.connected then
    if rxqHasRoom s then { s with rxq := s.rxq ++ [b] } else { s with rxOverflow := true }
  else s

/-- R56: `RxPeek(n)`, which consumes nothing. With fewer than `n` bytes, where R56 does not define it and no step uses it, it
gives those that are there (DESIGN CHOICE, log 20). -/
def rxPeek (n : Nat) (s : State) : List Byte := s.rxq.take n

/-- R57: `RxDiscard(1)`. On an empty queue, where R57 does not define it and no step uses it, it changes nothing (DESIGN CHOICE,
log 20). -/
def rxDiscard (s : State) : State := { s with rxq := s.rxq.drop 1 }

/-- R58: what `RxTake(n)` removes; the bytes it returns are `rxPeek n`. With fewer than `n` bytes, where R58 does not define it
and no step uses it, it empties the queue (DESIGN CHOICE, log 20). -/
def rxDrop (n : Nat) (s : State) : State := { s with rxq := s.rxq.drop n }

/-- R59: `RxFlush()`. -/
def rxFlush (s : State) : State := { s with rxq := [], txh := s.txh ++ [.flush] }

/-- R60: `TxWrite(bytes)`. -/
def txWrite (bytes : List Byte) (s : State) : State := { s with txh := s.txh ++ [.write bytes] }

/-- R161: `Post(r)`, the end of a command in its acceptance step; no settle delay follows. -/
def post (r : Result) (s : State) : State := { s with result := r, done := true }

/-- R160: the host's next command is taken, which ends the report of the last one (60_exceptions.md R241). -/
def acknowledge (s : State) : State := { s with done := false }

/-- R160: acceptance of a command that needs `ready = 1`. While the block is busy the command is not taken and the
state does not change; else `done` is cleared, and the check decides between `Post` and the command's rule. -/
def accept (check : Option Result) (run : State → State) (s : State) : State :=
  if ready s then
    match check with
    | some r => post r (acknowledge s)
    | none => run (acknowledge s)
  else s

/-- R180: `Finish()`, which posts the result held in `result`, after the settle delay where there is one. -/
def finish (s : State) : State :=
  let k := settleTicks s.cfg s.mode s.reqInstr
  if 0 < k then { s with settle := k, st := .settling } else { s with settle := k, st := .idle, done := true }

/-- A result computed at the end of a command's run: it is recorded, then `Finish` (R142, R170, R179). -/
def conclude (r : Result) (s : State) : State := finish { s with result := r }

/-- R141: one tick. -/
def tick (s : State) : State :=
  if s.st.awaiting then { s with elapsed := min (s.elapsed + 1) s.cfg.timeoutTicks }
  else if s.st = .settling ∧ 0 < s.settle then { s with settle := s.settle - 1 }
  else s

/-- R260: reset, in any state, in one step. The parameters are no state element (R37) and the environment's coming
moves are not the block's: both stay. -/
def resetBlock (s : State) : State := { State.reset with cfg := s.cfg, moves := s.moves }

end Sys2Proof.Machine
end

