-- ==== Sys2Proof/Machine/Group.lean ====
section
/-! DEFINITION. SEND (42_transaction.md R170 to R174) and the two group wire instructions (43_wire_instructions.md R208,
R209). -/

namespace Sys2Proof.Machine

open Sys2Proof

/-- R170: SEND's rule, after its check passed: encode, flush, write, and conclude with `OK` (no reply is read, R171). -/
def runSend (instr : Byte) (params : List Byte) (s : State) : State :=
  let sent := txWrite (encodeFrame Config.broadcastId instr params) (rxFlush s)
  conclude (.okay Config.broadcastId) { sent with mode := .send, reqInstr := instr }

/-- R160 and R162: SEND offered with any operands. -/
def offerSend (id instr : Byte) (params : List Byte) (s : State) : State :=
  accept (checkSend s.connected id instr params) (runSend instr params) s

/-- SYNC_READ (R208). -/
def execSyncRead (id : Byte) (params : List Byte) (s : State) : Host.Outcome State Fault Refusal :=
  .next (offerSend id 0x82 params s)

/-- SYNC_WRITE (R209). -/
def execSyncWrite (id : Byte) (params : List Byte) (s : State) : Host.Outcome State Fault Refusal :=
  .next (offerSend id 0x83 params s)

end Sys2Proof.Machine
end

