-- ==== Sys2Proof/Machine/Transact.lean ====
section
/-! DEFINITION. TRANSACT (42_transaction.md R167 to R169) and the seven unicast wire instructions (43_wire_instructions.md
R200 to R207). -/

namespace Sys2Proof.Machine

open Sys2Proof

/-- R167: TRANSACT's rule, after its check passed: encode, flush, write, arm the deadline, await the header. -/
def runTransact (id instr : Byte) (params : List Byte) (s : State) : State :=
  let sent := txWrite (encodeFrame id instr params) (rxFlush s)
  { sent with mode := .transact, expId := id, reqInstr := instr, elapsed := 0, st := .awaitHeader }

/-- R160 and R162: TRANSACT offered with any operands. -/
def offerTransact (id instr : Byte) (params : List Byte) (s : State) : State :=
  accept (checkTransact s.connected id instr params) (runTransact id instr params) s

/-- PING (R201). -/
def execPing (id : Byte) (params : List Byte) (s : State) : Host.Outcome State Fault Refusal :=
  .next (offerTransact id 0x01 params s)

/-- READ (R202). -/
def execRead (id : Byte) (params : List Byte) (s : State) : Host.Outcome State Fault Refusal :=
  .next (offerTransact id 0x02 params s)

/-- WRITE (R203). -/
def execWrite (id : Byte) (params : List Byte) (s : State) : Host.Outcome State Fault Refusal :=
  .next (offerTransact id 0x03 params s)

/-- REG_WRITE (R204). -/
def execRegWrite (id : Byte) (params : List Byte) (s : State) : Host.Outcome State Fault Refusal :=
  .next (offerTransact id 0x04 params s)

/-- ACTION (R205). -/
def execAction (id : Byte) (params : List Byte) (s : State) : Host.Outcome State Fault Refusal :=
  .next (offerTransact id 0x05 params s)

/-- FACTORY_RESET (R206). -/
def execFactoryReset (id : Byte) (params : List Byte) (s : State) : Host.Outcome State Fault Refusal :=
  .next (offerTransact id 0x06 params s)

/-- REBOOT (R207). -/
def execReboot (id : Byte) (params : List Byte) (s : State) : Host.Outcome State Fault Refusal :=
  .next (offerTransact id 0x08 params s)

end Sys2Proof.Machine
end

