-- ==== Sys2Proof/Machine/Dispatch.lean ====
section
/-! DEFINITION. The meaning of a wire instruction: the host command that sends it is offered to the block, one arm per
constructor. -/

namespace Sys2Proof.Machine

open Sys2Proof

def exec (i : Instr) (s : State) : Host.Outcome State Fault Refusal :=
  match i with
  -- sent by TRANSACT
  | .ping id params => Sys2Proof.Machine.execPing id params s
  | .read id params => Sys2Proof.Machine.execRead id params s
  | .write id params => Sys2Proof.Machine.execWrite id params s
  | .regWrite id params => Sys2Proof.Machine.execRegWrite id params s
  | .action id params => Sys2Proof.Machine.execAction id params s
  | .factoryReset id params => Sys2Proof.Machine.execFactoryReset id params s
  | .reboot id params => Sys2Proof.Machine.execReboot id params s
  -- sent by SEND
  | .syncRead id params => Sys2Proof.Machine.execSyncRead id params s
  | .syncWrite id params => Sys2Proof.Machine.execSyncWrite id params s

end Sys2Proof.Machine
end

