-- ==== Sys2Proof/Machine/Codec.lean ====
section
/-! DEFINITION. The pure functions between a received frame and a result: `ErrorBitsToFailure` (40_codec.md R111) and
`Validate` (42_transaction.md R178). -/

namespace Sys2Proof.Machine

open Sys2Proof

/-- The outcome of R111. -/
inductive ErrorOutcome where
  | success
  | hardwareError (id errbits : Byte) (conditions : List Condition)
  deriving DecidableEq, Repr

/-- R111: `ErrorBitsToFailure(e, id)`. -/
def errorBitsToFailure (e id : Byte) : ErrorOutcome :=
  if e = 0 then .success else .hardwareError id e (conditions e)

/-- R178: the part of `Validate` after a frame is decoded: addressee, then error bits. -/
def judgeFrame (f : Frame) (e : Byte) : Result :=
  if f.id ≠ e then .failure .invalidResponse e .idMismatch
  else
    match errorBitsToFailure f.err f.id with
    | .hardwareError i bits _ => { kind := .hardwareError, id := i, reason := .none, errbits := bits, frame := none }
    | .success => { kind := .ok, id := f.id, reason := .none, errbits := 0, frame := some f }

/-- R178: `Validate(b, e)`, with `b` the extracted bytes and `e` the expected id. -/
def validate (b : List Byte) (e : Byte) : Result :=
  match decodeFrame b with
  | .invalidResponse r => .failure .invalidResponse e r
  | .checksumError i => .failure .checksumError i .none
  | .frame f => judgeFrame f e

end Sys2Proof.Machine
end

