-- ==== Sys2Proof/Machine/Internal.lean ====
section
/-! DEFINITION. The block's internal steps: the synchronizer (41_synchronizer.md R130 to R142) and the steps of `COMPLETE`,
`TIMED_OUT`, `FAILED` and `SETTLING` (42_transaction.md R166, R179, R182). `none` is a state in which no internal rule
applies: it is blocked (00_scope.md R14). -/

namespace Sys2Proof.Machine

open Sys2Proof

/-- R131: the deadline has passed. -/
def deadlinePassed (s : State) : Bool := decide (s.cfg.timeoutTicks ≤ s.elapsed)

/-- R132, R133, R134: one step of `AWAIT_HEADER` before the deadline. -/
def headerStep (s : State) : Option State :=
  if 2 ≤ s.rxq.length then
    if rxPeek 2 s = [Config.hdr0, Config.hdr1] then some { s with st := .awaitLength } else some (rxDiscard s)
  else none

/-- R136: the total frame length a `LEN` byte announces, in 9 bits. -/
def totalLength (len : Byte) : BitVec 9 := len.zeroExtend 9 + BitVec.ofNat 9 Config.frameOverhead

/-- R135, R137: one step of `AWAIT_LENGTH` before the deadline. -/
def lengthStep (s : State) : Option State :=
  if 4 ≤ s.rxq.length then some { s with totalLen := totalLength (byteAt (rxPeek 4 s) 3), st := .awaitPayload }
  else none

/-- R138, R139: one step of `AWAIT_PAYLOAD` before the deadline. -/
def payloadStep (s : State) : Option State :=
  if s.totalLen.toNat ≤ s.rxq.length then
    some { rxDrop s.totalLen.toNat s with frameBuf := rxPeek s.totalLen.toNat s, st := .complete }
  else none

/-- R131: in every awaiting state the deadline comes first. -/
def awaitStep (progress : State → Option State) (s : State) : Option State :=
  if deadlinePassed s then some { s with st := .timedOut } else progress s

/-- R142: the step of `TIMED_OUT`. -/
def timedOutStep (s : State) : State := conclude (.failure .timeout s.expId .none) (rxFlush s)

/-- R179: the step of `COMPLETE`. -/
def completeStep (s : State) : State := conclude (validate s.frameBuf s.expId) s

/-- R166: the id of the aborted command. -/
def abortedId (s : State) : Byte := if s.mode = .send then Config.broadcastId else s.expId

/-- R166: the step of `FAILED`; no settle delay follows. -/
def failedStep (s : State) : State :=
  { s with result := .failure .connectionLost (abortedId s) .none, st := .idle, done := true }

/-- R182: the step of `SETTLING`. -/
def settlingStep (s : State) : Option State :=
  if s.settle = 0 then some { s with st := .idle, done := true } else none

/-- One internal step of the block, by the state register. -/
def internalStep (s : State) : Option State :=
  match s.st with
  | .idle => none
  | .awaitHeader => awaitStep headerStep s
  | .awaitLength => awaitStep lengthStep s
  | .awaitPayload => awaitStep payloadStep s
  | .complete => some (completeStep s)
  | .timedOut => some (timedOutStep s)
  | .failed => some (failedStep s)
  | .settling => settlingStep s

/-- The internal move: one internal step where one is enabled; a blocked block does not move. -/
def internalMove (s : State) : State := (internalStep s).getD s

/-- `k` internal moves in a row. The `RUN` of 30_encoding.md R89 is this for every `k` large enough that the block is
blocked or `IDLE` at the end. -/
def internalMoves : Nat → State → State
  | 0, s => s
  | k + 1, s => internalMoves k (internalMove s)

/-- The step when the environment lists no move: the block takes its internal step, and while it is blocked the clock
ticks. Ticks and internal steps are the two kinds R141 assumes to keep coming (weak fairness). -/
def quietMove (s : State) : State := (internalStep s).getD (tick s)

end Sys2Proof.Machine
end

