-- ==== Sys2Proof/Machine/Link.lean ====
section
/-! DEFINITION. The host commands that send no frame: CONNECT (42_transaction.md R163), DISCONNECT (R164, R165) and RECEIVE
(R175 to R177). -/

namespace Sys2Proof.Machine

open Sys2Proof

/-- R163: CONNECT's rule. -/
def runConnect (s : State) : State := post (.okay 0) { s with connected := true, rxOverflow := false }

/-- R160 and R163: CONNECT offered. -/
def offerConnect (s : State) : State := accept none runConnect s

/-- R164 and R165: the receiver is torn down and the queued bytes are gone. No `Flush` is recorded: neither rule calls
`RxFlush`. -/
def tearDown (s : State) : State := { s with connected := false, rxq := [] }

/-- R160, R164 and R165: DISCONNECT, accepted in every state. -/
def offerDisconnect (s : State) : State :=
  let closed := tearDown (acknowledge s)
  if ready s then post (.okay 0) closed else { closed with settle := 0, st := .failed }

/-- R175: RECEIVE's rule, after its check passed: no flush and no write. -/
def runReceive (id : Byte) (s : State) : State :=
  { s with mode := .receive, expId := id, elapsed := 0, st := .awaitHeader }

/-- R160 and R162: RECEIVE offered with any operand. -/
def offerReceive (id : Byte) (s : State) : State := accept (checkReceive s.connected id) (runReceive id) s

end Sys2Proof.Machine
end

