-- ==== Sys2Proof/Machine/Moves.lean ====
section
/-! DEFINITION. One move of the labelled transition system (00_scope.md R14): how an offered command is read and run, and
what the other moves do. -/

namespace Sys2Proof.Machine

open Sys2Proof

/-- The instruction an offered command sends: its code byte decoded by the opcode table (30_encoding.md R79), where the
command is the one that may send it. None for the commands that send no frame and for a code the command does not
admit. -/
def fetch (c : HostCmd) : Option Instr :=
  match c with
  | .connect => none
  | .disconnect => none
  | .receive _ => none
  | .transact id code params => (instrOf code id params).filter fun i => i.sender = .transact
  | .send id code params => (instrOf code id params).filter fun i => i.sender = .send

/-- A command that sends no wire instruction. A TRANSACT or SEND comes here only with a code it does not admit, and its
check refuses it (R80, R162). -/
def offerOther (c : HostCmd) (s : State) : State :=
  match c with
  | .connect => offerConnect s
  | .disconnect => offerDisconnect s
  | .receive id => offerReceive id s
  | .transact id code params => offerTransact id code params s
  | .send id code params => offerSend id code params s

/-- R160: the host offers a command. A command that is not accepted is not taken; the host may offer it again. -/
def offerCommand (c : HostCmd) (s : State) : Host.Outcome State Fault Refusal :=
  match fetch c with
  | some i => exec i s
  | none => .next (offerOther c s)

/-- R14: one move. -/
def runMove (m : Move) (s : State) : Host.Outcome State Fault Refusal :=
  match m with
  | .command c => offerCommand c s
  | .rx b => .next (rxPush b s)
  | .tick => .next (tick s)
  | .internal => .next (internalMove s)
  | .reset => .next (resetBlock s)

end Sys2Proof.Machine
end

