-- ==== Sys2Proof/Machine/Step.lean ====
section
/-! DEFINITION. The step function: the environment's next move is taken off the list and run; with none listed the block
and the clock move alone. -/

namespace Sys2Proof.Machine

open Sys2Proof

/-- One step of the system (00_scope.md R14). -/
def step (s : State) : Host.Outcome State Fault Refusal :=
  match s.moves with
  | [] => .next (quietMove s)
  | m :: rest => runMove m { s with moves := rest }

/-- The command that sends the table word `w` is the next thing offered to the block. -/
def State.withFetchWord (s : State) (_nbits w : Nat) : State :=
  { s with moves := .command (requestCommand (tableFrame w)) :: s.moves }

end Sys2Proof.Machine
end

