-- ==== Sys2Proof/Machine/HostOps.lean ====
section
/-! DEFINITION. What the host builds on the block: the parameter layouts of the group instructions (30_encoding.md R84,
R85), the pseudo-operations (R91) and the host procedures (42_transaction.md R187 to R189) as the commands they issue.
No step of the block reads any of it. Register addresses are arguments: the spec gives none (91_not_in_source.md N3). -/

namespace Sys2Proof.Machine

open Sys2Proof

/-- R84: `[registerAddress, width, (id, valueBytes)*]`. -/
def syncWriteParams (addr width : Byte) (entries : List (Byte × List Byte)) : List Byte :=
  [addr, width] ++ entries.flatMap fun e => e.1 :: e.2

/-- R85: `[registerAddress, width, id...]`. -/
def syncReadParams (addr width : Byte) (ids : List Byte) : List Byte := [addr, width] ++ ids

/-- R187: a group write is one SEND; `none` is the host's own `InvalidParameter` (an empty batch, a value of the wrong
width), raised before any command is issued. -/
def groupWrite (addr width : Byte) (entries : List (Byte × List Byte)) : Option HostCmd :=
  if entries ≠ [] ∧ entries.all (fun e => e.2.length == width.toNat) then
    some (.send Config.broadcastId 0x83 (syncWriteParams addr width entries))
  else none

/-- R188: a group read is one SEND and one RECEIVE per id, in the host's order; `none` is the host's own
`InvalidParameter` for an empty id set. -/
def groupRead (addr width : Byte) (ids : List Byte) : Option (List HostCmd) :=
  if ids ≠ [] then
    some (.send Config.broadcastId 0x82 (syncReadParams addr width ids) :: ids.map .receive)
  else none

/-- R188: what a group read stores for an id; any result but `OK` leaves the id absent. -/
def groupReadEntry (r : Result) : Option (List Byte) := if r.kind = .ok then r.frame.map (·.params) else none

/-- R189: discovery probes every id of a range. -/
def discovery (ids : List Byte) : List HostCmd := ids.map fun id => .transact id 0x01 []

/-- R189: an id is kept when its result is `OK`. -/
def discovered (r : Result) : Bool := decide (r.kind = .ok)

/-- R91: ping. -/
def pingOp (id : Byte) : HostCmd := .transact id 0x01 []

/-- R91: block read; the READ layout is PRESUMED (93_implementation_defined.md G2). -/
def blockReadOp (id addr width : Byte) : HostCmd := .transact id 0x02 [addr, width]

/-- R91: byte read (PRESUMED layout, G2). -/
def byteReadOp (id addr : Byte) : HostCmd := blockReadOp id addr 0x01

/-- R91: word read, readPosition (PRESUMED layout, G2). -/
def wordReadOp (id addr : Byte) : HostCmd := blockReadOp id addr 0x02

/-- R91: block write; the WRITE layout is PRESUMED (G3). -/
def blockWriteOp (id addr : Byte) (bytes : List Byte) : HostCmd := .transact id 0x03 (addr :: bytes)

/-- R91: byte write, and with it torque toggle and id change (PRESUMED layout, G3). -/
def byteWriteOp (id addr v : Byte) : HostCmd := blockWriteOp id addr [v]

/-- R91: baud-rate change, a byte write of one of the eight register values R90 assigns (PRESUMED layout, G3). -/
def setBaudRateOp (id addr : Byte) (k : Fin 8) : HostCmd := byteWriteOp id addr (BitVec.ofNat 8 k.val)

/-- R62: the two bytes of a word in the host's byte order. -/
def wordBytes (order : ByteOrder) (v : BitVec 16) : List Byte :=
  match order with
  | .little => [v.truncate 8, (v >>> 8).truncate 8]
  | .big => [(v >>> 8).truncate 8, v.truncate 8]

/-- R91: word write, writePosition (PRESUMED layout, G3). -/
def wordWriteOp (p : Params) (id addr : Byte) (v : BitVec 16) : HostCmd :=
  blockWriteOp id addr (wordBytes p.regByteOrder v)

/-- R91: factory reset. -/
def factoryResetOp (id : Byte) : HostCmd := .transact id 0x06 []

/-- R91: reboot. -/
def rebootOp (id : Byte) : HostCmd := .transact id 0x08 []

/-- R91: ServoStatus, one block read and one byte read. -/
def servoStatusOp (id addr width extra : Byte) : List HostCmd := [blockReadOp id addr width, byteReadOp id extra]

/-- R90: the bit rate a baud-rate register value selects, information only; 8 to 255 are unassigned. -/
def baudRate (v : Byte) : Option Nat :=
  [1000000, 500000, 250000, 128000, 115200, 57600, 38400, 19200][v.toNat]?

/-- R141: `TIMEOUT_TICKS = ceil(timeoutMs / TICK_PERIOD)`, both durations in microseconds. -/
def ticksOf (duration period : Nat) : Nat := (duration + period - 1) / period

end Sys2Proof.Machine
end

