-- ==== Sys2Proof/Safety.lean ====
section
/-! DEFINITION. What holds in every reachable state (10_state.md R43, 41_synchronizer.md R147), what each result records
(60_exceptions.md R237), and the end of a command's run (42_transaction.md R185), in the terms claims use. -/

namespace Sys2Proof.Machine

open Sys2Proof

/-- R237: what a result of each kind records. -/
def Result.wellShaped (r : Result) : Bool :=
  match r.kind with
  | .none => r == Result.initial
  | .ok =>
    r.reason == .none && r.errbits == 0 &&
      match r.frame with
      | none => r.id == 0 || r.id == Config.broadcastId
      | some f => r.id == f.id && f.err == 0 && unicastIdOk r.id
  | .connectionLost => r == .failure .connectionLost r.id .none
  | .timeout => r == .failure .timeout r.id .none
  | .checksumError => r == .failure .checksumError r.id .none
  | .invalidResponse => r.errbits == 0 && r.frame == none && [.short, .header, .length, .idMismatch].contains r.reason
  | .hardwareError => r.reason == .none && r.errbits != 0 && r.frame == none
  | .invalidParameter => r.errbits == 0 && r.frame == none && [.badId, .badInstr, .tooManyParams].contains r.reason

/-- The states between the acceptance of TRANSACT or RECEIVE and the posting of its result (R43 (a)). -/
def Phase.receiving (p : Phase) : Bool := p.awaiting || p == .complete || p == .timedOut

/-- The invariant of the block: R43 (a) and (c) to (f), R147, and the ranges R22, R25, R27, R55 and R245 give. -/
structure Inv (s : State) : Prop where
  /-- R8, R262: the parameters are admissible. -/
  params : s.cfg.admissible = true
  /-- R43 (a). -/
  receiving_connected : s.st.receiving = true → s.connected = true
  /-- R43 (a). -/
  receiving_mode : s.st.receiving = true → s.mode = .transact ∨ s.mode = .receive
  /-- R43 (c), and the same for every state but `SETTLING`: a settle counter is left only at 0 (R165, R182). -/
  settle_zero : s.st ≠ .settling → s.settle = 0
  /-- R43 (d). -/
  done_idle : s.done = true → s.st = .idle
  /-- R43 (e). -/
  elapsed_le : s.elapsed ≤ s.cfg.timeoutTicks
  /-- R43 (f). -/
  frameBuf_le : s.frameBuf.length ≤ Config.maxFrame
  /-- R27. -/
  totalLen_le : s.totalLen.toNat ≤ Config.maxFrame
  /-- R147: the header stays at the head of the queue. -/
  header_held : s.st = .awaitLength ∨ s.st = .awaitPayload → s.rxq.take 2 = [Config.hdr0, Config.hdr1]
  /-- R147. -/
  length_read : s.st = .awaitPayload →
    4 ≤ s.rxq.length ∧ s.totalLen.toNat = (byteAt s.rxq 3).toNat + Config.frameOverhead
  /-- R138: what was extracted starts with the header and has the length it announces. -/
  extracted : s.st = .complete →
    4 ≤ s.frameBuf.length ∧ s.frameBuf.take 2 = [Config.hdr0, Config.hdr1] ∧
      s.frameBuf.length = (byteAt s.frameBuf 3).toNat + Config.frameOverhead
  /-- R52: the expected id is unicast. -/
  expId_unicast : s.st.receiving = true → unicastIdOk s.expId = true
  /-- R22. -/
  rxq_cap : ∀ cap, s.cfg.rxqCap = some cap → s.rxq.length ≤ cap
  /-- R55, R164, R165: no byte is queued while the transport is closed. -/
  closed_empty : s.connected = false → s.rxq = []
  /-- R165: a settle delay in progress ends when the transport is closed. -/
  settling_connected : s.st = .settling → s.connected = true
  /-- R245 (b). -/
  settle_range : s.settle ≤ max s.cfg.settleWriteTicks s.cfg.settleResetTicks
  /-- R237. -/
  result_shape : s.result.wellShaped = true

/-- R185: the end of a command's run. -/
def ended (s : State) : Prop := s.st = .idle ∧ s.done = true

/-- `k` steps of the machine from `s` end in `t`. -/
def runsTo (k : Nat) (s t : State) : Prop := Sys2Proof.core.run k s = .next t

/-- Moves that suffice, in this order and with any others between them, to end a command in progress (R183): the ticks of
the deadline, two internal moves, the ticks of the longer settle delay, and one internal move. -/
def endingMoves (p : Params) : List Move :=
  List.replicate p.timeoutTicks .tick ++ [.internal, .internal] ++
    List.replicate (max p.settleWriteTicks p.settleResetTicks) .tick ++ [.internal]

/-- The ticks among a list of moves (R146). -/
def tickCount (ms : List Move) : Nat := ms.count .tick

/-- The frames an outbound history transmitted, in order (R34). -/
def writes (h : List TxEvent) : List (List Byte) :=
  h.filterMap fun
    | .write bytes => some bytes
    | .flush => none

end Sys2Proof.Machine
end

