-- ==== Sys2Proof/Certificates/Slice0/Obligations.lean ====
section
/-! DEFINITION. The statements for the provers, in the order of the spec's files: codec, decoding, the wire instructions, the
host commands, the environment's moves, the internal steps, and the rules about the whole machine. -/

open Sys2Proof Sys2Proof.Machine

/-! The codec (40_codec.md). -/

/-- R100: the checksum is the bitwise complement of the low 8 bits of the sum of the body. -/
def Obligations.ChecksumComplementsByteSum : Prop :=
  ∀ body : List Byte,
    (checksum body).toNat = 0xFF - (body.map BitVec.toNat).sum % 256 ∧
    checksum body = ~~~(BitVec.ofNat 8 (body.map BitVec.toNat).sum)

/-- R101: `Encode` builds header, id, length, instruction, parameters and checksum in that order. -/
def Obligations.EncodeBuildsTheFrame : Prop :=
  ∀ (id x : Byte) (p : List Byte), p.length ≤ 253 →
    encodeFrame id x p =
      [0xFF, 0xFF, id, BitVec.ofNat 8 (p.length + 2), x] ++ p ++
        [checksum ([id, BitVec.ofNat 8 (p.length + 2), x] ++ p)] ∧
    (encodeFrame id x p).length = p.length + 6 ∧
    (byteAt (encodeFrame id x p) 3).toNat = p.length + 2

/-- R104: `Decode`'s checks run in order and the first that fails decides; a frame that passes all is split. -/
def Obligations.DecodeChecksInOrder : Prop :=
  ∀ b : List Byte,
    (b.length < 6 → decodeFrame b = .invalidResponse .short) ∧
    (6 ≤ b.length → (byteAt b 0 ≠ 0xFF ∨ byteAt b 1 ≠ 0xFF) → decodeFrame b = .invalidResponse .header) ∧
    (6 ≤ b.length → byteAt b 0 = 0xFF → byteAt b 1 = 0xFF → b.length ≠ (byteAt b 3).toNat + 4 →
      decodeFrame b = .invalidResponse .length) ∧
    (6 ≤ b.length → byteAt b 0 = 0xFF → byteAt b 1 = 0xFF → b.length = (byteAt b 3).toNat + 4 →
      byteAt b (b.length - 1) ≠ checksum (slice b 2 (b.length - 2)) →
      decodeFrame b = .checksumError (byteAt b 2)) ∧
    (6 ≤ b.length → byteAt b 0 = 0xFF → byteAt b 1 = 0xFF → b.length = (byteAt b 3).toNat + 4 →
      byteAt b (b.length - 1) = checksum (slice b 2 (b.length - 2)) →
      decodeFrame b = .frame
        { id := byteAt b 2, length := byteAt b 3, err := byteAt b 4, params := slice b 5 (b.length - 2),
          checksum := byteAt b (b.length - 1) })

/-- R113 and its converse: `Decode` accepts exactly the frames `Encode` builds, and gives back what went in. -/
def Obligations.DecodeAcceptsExactlyEncodedFrames : Prop :=
  ∀ (b : List Byte) (f : Frame),
    decodeFrame b = .frame f ↔
      b = encodeFrame f.id f.err f.params ∧ f.params.length ≤ 253 ∧
      f.length = BitVec.ofNat 8 (f.params.length + 2) ∧
      f.checksum = checksum ([f.id, f.length, f.err] ++ f.params)

/-- R114: every change of a single byte of a frame is detected, with the failure that rule names. -/
def Obligations.SingleByteChangeIsDetected : Prop :=
  ∀ (id x : Byte) (p : List Byte) (i : Nat) (v : Byte), p.length ≤ 253 →
    i < (encodeFrame id x p).length → v ≠ byteAt (encodeFrame id x p) i →
    decodeFrame ((encodeFrame id x p).set i v) =
      if i = 0 ∨ i = 1 then .invalidResponse .header
      else if i = 3 then .invalidResponse .length
      else .checksumError (byteAt ((encodeFrame id x p).set i v) 2)

/-- R111 (with R81's masks and R82's bit 7): zero is success; any other byte is a `HardwareError` that names exactly the
set bits, in ascending bit order. -/
def Obligations.ErrorByteNamesEverySetBit : Prop :=
  (∀ id : Byte, errorBitsToFailure 0 id = .success) ∧
  (∀ e id : Byte, e ≠ 0 → errorBitsToFailure e id = .hardwareError id e (conditions e)) ∧
  (∀ e : Byte,
    (conditions e).Sublist
      [.voltage, .angle, .overheat, .range, .checksum, .overload, .instruction, .unnamedBit7] ∧
    (.voltage ∈ conditions e ↔ e &&& 0x01 ≠ 0) ∧ (.angle ∈ conditions e ↔ e &&& 0x02 ≠ 0) ∧
    (.overheat ∈ conditions e ↔ e &&& 0x04 ≠ 0) ∧ (.range ∈ conditions e ↔ e &&& 0x08 ≠ 0) ∧
    (.checksum ∈ conditions e ↔ e &&& 0x10 ≠ 0) ∧ (.overload ∈ conditions e ↔ e &&& 0x20 ≠ 0) ∧
    (.instruction ∈ conditions e ↔ e &&& 0x40 ≠ 0) ∧ (.unnamedBit7 ∈ conditions e ↔ e &&& 0x80 ≠ 0))

/-! Decoding and encoding the wire instructions (30_encoding.md). -/

/-- Every well-formed instruction decodes from its own request frame, with every operand. -/
def Obligations.DecodeInvertsEncode : Prop :=
  ∀ i : Instr, i.wellFormed = true → decode (encode i) = .ok i

/-- The decoder accepts no other bytes than the encoder writes, and only well-formed instructions. That the request decoder
rejects an id that is no legal target is the model's choice (assumption log 16); R110's `Decode` accepts any id. -/
def Obligations.DecodedRequestsAreEncodings : Prop :=
  ∀ (b : List Byte) (i : Instr), decode b = .ok i → i.wellFormed = true ∧ encode i = b

/-- R80: the codes outside R79's list name no instruction, the codes of the list each name one. -/
def Obligations.OnlyNineCodesNameInstructions : Prop :=
  ∀ (code id : Byte) (p : List Byte),
    (instrOf code id p = none ↔
      code ∉ ([0x01, 0x02, 0x03, 0x04, 0x05, 0x06, 0x08, 0x82, 0x83] : List Byte)) ∧
    (∀ i, instrOf code id p = some i → opcode i = code ∧ i.id = id ∧ i.params = p)

/-- Request frames written out in 43_wire_instructions.md decode to the instructions they stand for. -/
def Obligations.WrittenOutRequestsDecode : Prop :=
  decode [0xFF, 0xFF, 0x05, 0x02, 0x01, 0xF7] = .ok (.ping 0x05 []) ∧
  decode [0xFF, 0xFF, 0x01, 0x04, 0x02, 0x38, 0x02, 0xBE] = .ok (.read 0x01 [0x38, 0x02]) ∧
  decode [0xFF, 0xFF, 0x01, 0x05, 0x04, 0x2A, 0x00, 0x08, 0xC3] = .ok (.regWrite 0x01 [0x2A, 0x00, 0x08]) ∧
  decode [0xFF, 0xFF, 0xFE, 0x07, 0x82, 0x38, 0x02, 0x01, 0x02, 0x03, 0x38] =
    .ok (.syncRead 0xFE [0x38, 0x02, 0x01, 0x02, 0x03])

/-! The wire instructions (43_wire_instructions.md, 42_transaction.md sections 3 and 4). -/

/-- When the request frame `b` decodes to `i` and the host offers the command with `b`'s operands, the step is `exec i`
on the state with that move taken off the environment's list. -/
def Obligations.StepRunsTheDecodedInstruction : Prop :=
  ∀ (s : State) (b : List Byte) (i : Instr) (rest : List Move),
    decode b = .ok i → s.moves = .command (requestCommand b) :: rest →
    step s = exec i { s with moves := rest }

/-- R167 for the five instructions the source sends with `transact`: on an idle, connected block with a unicast id and
at most 253 parameters the request is flushed, written and awaited, and nothing else changes. -/
def Obligations.UnicastInstructionsTransmitAndAwait : Prop :=
  ∀ (s : State) (id : Byte) (p : List Byte),
    s.st = .idle → s.connected = true → id.toNat ≤ 253 → p.length ≤ 253 →
    (exec (.ping id p) s = .next { s with
      done := false, rxq := [], txh := s.txh ++ [.flush] ++ [.write (encodeFrame id 0x01 p)], mode := .transact,
      expId := id, reqInstr := 0x01, elapsed := 0, st := .awaitHeader }) ∧
    (exec (.read id p) s = .next { s with
      done := false, rxq := [], txh := s.txh ++ [.flush] ++ [.write (encodeFrame id 0x02 p)], mode := .transact,
      expId := id, reqInstr := 0x02, elapsed := 0, st := .awaitHeader }) ∧
    (exec (.write id p) s = .next { s with
      done := false, rxq := [], txh := s.txh ++ [.flush] ++ [.write (encodeFrame id 0x03 p)], mode := .transact,
      expId := id, reqInstr := 0x03, elapsed := 0, st := .awaitHeader }) ∧
    (exec (.factoryReset id p) s = .next { s with
      done := false, rxq := [], txh := s.txh ++ [.flush] ++ [.write (encodeFrame id 0x06 p)], mode := .transact,
      expId := id, reqInstr := 0x06, elapsed := 0, st := .awaitHeader }) ∧
    (exec (.reboot id p) s = .next { s with
      done := false, rxq := [], txh := s.txh ++ [.flush] ++ [.write (encodeFrame id 0x08 p)], mode := .transact,
      expId := id, reqInstr := 0x08, elapsed := 0, st := .awaitHeader })

/-- REG_WRITE and ACTION: as the other unicast instructions. That TRANSACT may send these two is what the spec marks
INFERRED (R204, R205: "the source lists the code but names no operation that uses it"). -/
def Obligations.RegWriteAndActionTransmitAndAwait : Prop :=
  ∀ (s : State) (id : Byte) (p : List Byte),
    s.st = .idle → s.connected = true → id.toNat ≤ 253 → p.length ≤ 253 →
    (exec (.regWrite id p) s = .next { s with
      done := false, rxq := [], txh := s.txh ++ [.flush] ++ [.write (encodeFrame id 0x04 p)], mode := .transact,
      expId := id, reqInstr := 0x04, elapsed := 0, st := .awaitHeader }) ∧
    (exec (.action id p) s = .next { s with
      done := false, rxq := [], txh := s.txh ++ [.flush] ++ [.write (encodeFrame id 0x05 p)], mode := .transact,
      expId := id, reqInstr := 0x05, elapsed := 0, st := .awaitHeader })

/-- R170 for SYNC_READ: the broadcast frame is flushed and written, the result is `OK` with id `0xFE`, and the block is
idle at once, or settles where the parameters give the code a delay; with R181's default classes there is none. -/
def Obligations.SyncReadTransmitsAndPosts : Prop :=
  ∀ (s : State) (p : List Byte), s.st = .idle → s.connected = true → p.length ≤ 253 →
    exec (.syncRead 0xFE p) s = .next { s with
      rxq := [], txh := s.txh ++ [.flush] ++ [.write (encodeFrame 0xFE 0x82 p)], mode := .send, reqInstr := 0x82,
      result := { kind := .ok, id := 0xFE, reason := .none, errbits := 0, frame := none },
      settle := settleTicks s.cfg .send 0x82,
      st := if 0 < settleTicks s.cfg .send 0x82 then .settling else .idle,
      done := decide (settleTicks s.cfg .send 0x82 = 0) } ∧
    (s.cfg.settleClass = Config.defaultSettleClass → settleTicks s.cfg .send 0x82 = 0)

/-- R170 and R172 for SYNC_WRITE: as SYNC_READ, and with R181's default classes the result is held for
`SETTLE_WRITE_TICKS`. -/
def Obligations.SyncWriteTransmitsAndSettles : Prop :=
  ∀ (s : State) (p : List Byte), s.st = .idle → s.connected = true → p.length ≤ 253 →
    exec (.syncWrite 0xFE p) s = .next { s with
      rxq := [], txh := s.txh ++ [.flush] ++ [.write (encodeFrame 0xFE 0x83 p)], mode := .send, reqInstr := 0x83,
      result := { kind := .ok, id := 0xFE, reason := .none, errbits := 0, frame := none },
      settle := settleTicks s.cfg .send 0x83,
      st := if 0 < settleTicks s.cfg .send 0x83 then .settling else .idle,
      done := decide (settleTicks s.cfg .send 0x83 = 0) } ∧
    (s.cfg.settleClass = Config.defaultSettleClass → settleTicks s.cfg .send 0x83 = s.cfg.settleWriteTicks)

/-- An instruction the encoding does not admit ends with `InvalidParameter`, and a well-formed one with `ConnectionLost`
while the transport is closed; only `result` and `done` change, and nothing is sent. That REG_WRITE and ACTION, which TRANSACT
sends, are not refused for their code is inferred (R204, R205, D11; assumption log 11). -/
def Obligations.RefusedInstructionsPostAndSendNothing : Prop :=
  ∀ (s : State) (i : Instr), s.st = .idle →
    (i.idOk = false → exec i s = .next { s with
      result := { kind := .invalidParameter, id := i.id, reason := .badId, errbits := 0, frame := none },
      done := true }) ∧
    (i.idOk = true → 253 < i.params.length → exec i s = .next { s with
      result := { kind := .invalidParameter, id := i.id, reason := .tooManyParams, errbits := 0, frame := none },
      done := true }) ∧
    (i.wellFormed = true → s.connected = false → exec i s = .next { s with
      result := { kind := .connectionLost, id := i.id, reason := .none, errbits := 0, frame := none },
      done := true })

/-! The host commands (42_transaction.md). -/

/-- R162: the checks of TRANSACT, SEND and RECEIVE, in order; the first that fails decides. A failure is posted in the
acceptance step (R161). That TRANSACT admits the codes 0x04 and 0x05 is inferred (D11, assumption log 11). -/
def Obligations.AcceptanceChecksRunInOrder : Prop :=
  ∀ (s : State) (rest : List Move) (id code : Byte) (p : List Byte), s.st = .idle →
    (s.moves = .command (.transact id code p) :: rest →
      (253 < id.toNat → step s = .next { s with
        moves := rest, done := true,
        result := { kind := .invalidParameter, id := id, reason := .badId, errbits := 0, frame := none } }) ∧
      (id.toNat ≤ 253 → code ∉ ([0x01, 0x02, 0x03, 0x04, 0x05, 0x06, 0x08] : List Byte) → step s = .next { s with
        moves := rest, done := true,
        result := { kind := .invalidParameter, id := id, reason := .badInstr, errbits := 0, frame := none } }) ∧
      (id.toNat ≤ 253 → code ∈ ([0x01, 0x02, 0x03, 0x04, 0x05, 0x06, 0x08] : List Byte) → 253 < p.length →
        step s = .next { s with
          moves := rest, done := true,
          result := { kind := .invalidParameter, id := id, reason := .tooManyParams, errbits := 0, frame := none } }) ∧
      (id.toNat ≤ 253 → code ∈ ([0x01, 0x02, 0x03, 0x04, 0x05, 0x06, 0x08] : List Byte) → p.length ≤ 253 →
        s.connected = false → step s = .next { s with
          moves := rest, done := true,
          result := { kind := .connectionLost, id := id, reason := .none, errbits := 0, frame := none } }) ∧
      (id.toNat ≤ 253 → code ∈ ([0x01, 0x02, 0x03, 0x04, 0x05, 0x06, 0x08] : List Byte) → p.length ≤ 253 →
        s.connected = true → step s = .next (runTransact id code p { s with moves := rest, done := false }))) ∧
    (s.moves = .command (.send id code p) :: rest →
      (id ≠ 0xFE → step s = .next { s with
        moves := rest, done := true,
        result := { kind := .invalidParameter, id := id, reason := .badId, errbits := 0, frame := none } }) ∧
      (id = 0xFE → code ∉ ([0x82, 0x83] : List Byte) → step s = .next { s with
        moves := rest, done := true,
        result := { kind := .invalidParameter, id := id, reason := .badInstr, errbits := 0, frame := none } }) ∧
      (id = 0xFE → code ∈ ([0x82, 0x83] : List Byte) → 253 < p.length → step s = .next { s with
        moves := rest, done := true,
        result := { kind := .invalidParameter, id := id, reason := .tooManyParams, errbits := 0, frame := none } }) ∧
      (id = 0xFE → code ∈ ([0x82, 0x83] : List Byte) → p.length ≤ 253 → s.connected = false → step s = .next { s with
        moves := rest, done := true,
        result := { kind := .connectionLost, id := id, reason := .none, errbits := 0, frame := none } }) ∧
      (id = 0xFE → code ∈ ([0x82, 0x83] : List Byte) → p.length ≤ 253 → s.connected = true →
        step s = .next (runSend code p { s with moves := rest, done := false }))) ∧
    (s.moves = .command (.receive id) :: rest →
      (253 < id.toNat → step s = .next { s with
        moves := rest, done := true,
        result := { kind := .invalidParameter, id := id, reason := .badId, errbits := 0, frame := none } }) ∧
      (id.toNat ≤ 253 → s.connected = false → step s = .next { s with
        moves := rest, done := true,
        result := { kind := .connectionLost, id := id, reason := .none, errbits := 0, frame := none } }) ∧
      (id.toNat ≤ 253 → s.connected = true →
        step s = .next (runReceive id { s with moves := rest, done := false })))

/-- R160: while `st` is not `IDLE` no command but DISCONNECT is taken, and the block's state does not change. -/
def Obligations.BusyBlockTakesNoCommand : Prop :=
  ∀ (s : State), s.st ≠ .idle →
    (∀ i : Instr, exec i s = .next s) ∧
    (∀ (c : HostCmd) (rest : List Move), c ≠ .disconnect → s.moves = .command c :: rest →
      step s = .next { s with moves := rest })

/-- R163: CONNECT. -/
def Obligations.ConnectOpensTheTransport : Prop :=
  ∀ (s : State) (rest : List Move), s.moves = .command .connect :: rest → s.st = .idle →
    step s = .next { s with
      moves := rest, connected := true, rxOverflow := false, done := true,
      result := { kind := .ok, id := 0, reason := .none, errbits := 0, frame := none } }

/-- R164: DISCONNECT in `IDLE`. That `txh` records no `Flush` for the emptied queue is the model's reading (assumption
log 8). -/
def Obligations.DisconnectInIdleClosesTheTransport : Prop :=
  ∀ (s : State) (rest : List Move), s.moves = .command .disconnect :: rest → s.st = .idle →
    step s = .next { s with
      moves := rest, connected := false, rxq := [], done := true,
      result := { kind := .ok, id := 0, reason := .none, errbits := 0, frame := none } }

/-- R165, and R231 (b): DISCONNECT in any other state aborts the command in progress, whatever the deadline and the settle
counter; one internal step later the result is `ConnectionLost` for the command's id, and replaces a result that was held. That
`txh` records no `Flush` (assumption log 8) and that acceptance clears `done` (R160; log 18) are the model's readings. -/
def Obligations.DisconnectAbortsACommand : Prop :=
  ∀ (s : State) (rest : List Move), s.st ≠ .idle →
    (s.moves = .command .disconnect :: rest →
      step s = .next { s with
        moves := rest, connected := false, rxq := [], settle := 0, st := .failed, done := false }) ∧
    (s.moves = .command .disconnect :: .internal :: rest →
      runsTo 2 s { s with
        moves := rest, connected := false, rxq := [], settle := 0, st := .idle, done := true,
        result := { kind := .connectionLost, id := if s.mode = .send then 0xFE else s.expId, reason := .none,
                    errbits := 0, frame := none } })

/-- R175: RECEIVE arms the deadline and awaits a header; it does not flush and does not write. -/
def Obligations.ReceiveAwaitsWithoutFlush : Prop :=
  ∀ (s : State) (rest : List Move) (id : Byte), s.moves = .command (.receive id) :: rest → s.st = .idle →
    s.connected = true → id.toNat ≤ 253 →
    step s = .next { s with
      moves := rest, done := false, mode := .receive, expId := id, elapsed := 0, st := .awaitHeader }

/-! The environment's moves (20_memory.md, 41_synchronizer.md, 70_reset_and_hazards.md). -/

/-- R55: while the transport is open `RxPush` appends at the tail, or drops the byte and sets `rx_overflow` at a full
queue, in every value of `st`. -/
def Obligations.ProducerAppendsOneByte : Prop :=
  ∀ (s : State) (rest : List Move) (b : Byte), s.moves = .rx b :: rest → s.connected = true →
    ((∀ cap, s.cfg.rxqCap = some cap → s.rxq.length < cap) →
      step s = .next { s with moves := rest, rxq := s.rxq ++ [b] }) ∧
    ((∃ cap, s.cfg.rxqCap = some cap ∧ cap ≤ s.rxq.length) →
      step s = .next { s with moves := rest, rxOverflow := true })

/-- A move the block does not enable changes nothing but the list of moves: a byte while the transport is closed (R55) and
an internal move while no internal rule applies (R14). This form is the model's choice (assumption log 4). -/
def Obligations.MovesNotEnabledChangeNothing : Prop :=
  ∀ (s : State) (rest : List Move),
    (∀ b, s.moves = .rx b :: rest → s.connected = false → step s = .next { s with moves := rest }) ∧
    (s.moves = .internal :: rest → internalStep s = none → step s = .next { s with moves := rest }) ∧
    (internalStep s = none ↔
      s.st = .idle ∨ (s.st = .settling ∧ 0 < s.settle) ∨
      (s.elapsed < s.cfg.timeoutTicks ∧
        ((s.st = .awaitHeader ∧ s.rxq.length < 2) ∨ (s.st = .awaitLength ∧ s.rxq.length < 4) ∨
          (s.st = .awaitPayload ∧ s.rxq.length < s.totalLen.toNat))))

/-- With no move listed the block takes its internal step, and where none applies the clock ticks: the model's choice of a
fair schedule (assumption log 3; R141 assumes weak fairness for these two kinds of step). -/
def Obligations.QuietEnvironmentIsFair : Prop :=
  ∀ s : State, s.moves = [] →
    (∀ t, internalStep s = some t → step s = .next t) ∧
    (internalStep s = none → step s = .next (tick s))

/-- R141: what a tick changes, in every state; and the tick count of a deadline is its duration over the tick period,
rounded up. -/
def Obligations.TickCountsTheDeadlineAndTheSettle : Prop :=
  (∀ (s : State) (rest : List Move), s.moves = .tick :: rest →
    (s.st ∈ [.awaitHeader, .awaitLength, .awaitPayload] →
      step s = .next { s with moves := rest, elapsed := min (s.elapsed + 1) s.cfg.timeoutTicks }) ∧
    (s.st = .settling → step s = .next { s with moves := rest, settle := s.settle - 1 }) ∧
    (s.st ∈ [.idle, .complete, .timedOut, .failed] → step s = .next { s with moves := rest })) ∧
  (∀ duration period n : Nat, 0 < period → (ticksOf duration period ≤ n ↔ duration ≤ n * period))

/-- R41: the value of every element after reset. These values are the spec's decision D18. Reset in any state gives them
(R260). The clauses on the model's own fields are its choice: `State.reset` lists no move and reset keeps the coming moves
and the parameters (assumption log 7), and the reset parameters are Config's (log 9 and 10). -/
def Obligations.ResetSetsEveryElement : Prop :=
  (State.reset =
    { st := .idle, connected := false, rxq := [], rxOverflow := false, mode := .none, expId := 0, reqInstr := 0,
      totalLen := 0, elapsed := 0, settle := 0, frameBuf := [],
      result := { kind := .none, id := 0, reason := .none, errbits := 0, frame := none },
      done := false, txh := [], cfg := Config.params, moves := [] }) ∧
  ∀ (s : State) (rest : List Move), s.moves = .reset :: rest →
    step s = .next
      { st := .idle, connected := false, rxq := [], rxOverflow := false, mode := .none, expId := 0, reqInstr := 0,
        totalLen := 0, elapsed := 0, settle := 0, frameBuf := [],
        result := { kind := .none, id := 0, reason := .none, errbits := 0, frame := none },
        done := false, txh := [], cfg := s.cfg, moves := rest }

/-! The internal steps (41_synchronizer.md, 42_transaction.md). -/

/-- R131: in every awaiting state the deadline is compared first, and `rxq` is not touched. -/
def Obligations.DeadlineIsCheckedBeforeProgress : Prop :=
  ∀ (s : State) (rest : List Move), s.moves = .internal :: rest →
    s.st ∈ [.awaitHeader, .awaitLength, .awaitPayload] → s.cfg.timeoutTicks ≤ s.elapsed →
    step s = .next { s with moves := rest, st := .timedOut }

/-- R132, R133 and R134: the header search looks at one pair, takes it, discards one byte, or waits for a pair. That an
internal move in the waiting state changes nothing is the model's choice (assumption log 4). -/
def Obligations.HeaderSearchActsOnOnePair : Prop :=
  ∀ (s : State) (rest : List Move), s.moves = .internal :: rest →
    s.st = .awaitHeader → s.elapsed < s.cfg.timeoutTicks →
    (∀ tail, s.rxq = 0xFF :: 0xFF :: tail → step s = .next { s with moves := rest, st := .awaitLength }) ∧
    (∀ a b tail, s.rxq = a :: b :: tail → ¬(a = 0xFF ∧ b = 0xFF) →
      step s = .next { s with moves := rest, rxq := b :: tail }) ∧
    (s.rxq.length < 2 → step s = .next { s with moves := rest })

/-- R135, R136 and R137: `total_len` is the fourth queued byte plus 4, without consuming, once 4 bytes are there.
That an internal move in the waiting state changes nothing is the model's choice (assumption log 4). -/
def Obligations.LengthByteSetsTotalLength : Prop :=
  ∀ (s : State) (rest : List Move), s.moves = .internal :: rest →
    s.st = .awaitLength → s.elapsed < s.cfg.timeoutTicks →
    (∀ a b c len tail, s.rxq = a :: b :: c :: len :: tail →
      step s = .next { s with moves := rest, totalLen := BitVec.ofNat 9 (len.toNat + 4), st := .awaitPayload } ∧
      (BitVec.ofNat 9 (len.toNat + 4)).toNat = len.toNat + 4) ∧
    (s.rxq.length < 4 → step s = .next { s with moves := rest })

/-- R138 and R139: exactly `total_len` bytes are taken from the head of the queue once they are there. That an internal move
in the waiting state changes nothing is the model's choice (assumption log 4). -/
def Obligations.PayloadIsExtractedWhole : Prop :=
  ∀ (s : State) (rest : List Move), s.moves = .internal :: rest →
    s.st = .awaitPayload → s.elapsed < s.cfg.timeoutTicks →
    (∀ f tail, s.rxq = f ++ tail → f.length = s.totalLen.toNat →
      step s = .next { s with moves := rest, frameBuf := f, rxq := tail, st := .complete }) ∧
    (s.rxq.length < s.totalLen.toNat → step s = .next { s with moves := rest })

/-- R142, with R180's `Finish`: a timeout empties the queue, records `TIMEOUT` for the expected id, and settles as the
request's class says. -/
def Obligations.TimeoutEmptiesTheQueue : Prop :=
  ∀ (s : State) (rest : List Move), s.moves = .internal :: rest → s.st = .timedOut →
    step s = .next (finish { s with
      moves := rest, rxq := [], txh := s.txh ++ [.flush],
      result := { kind := .timeout, id := s.expId, reason := .none, errbits := 0, frame := none } })

/-- R179: `COMPLETE` validates the extracted bytes against the expected id and finishes. -/
def Obligations.CompleteValidatesAndFinishes : Prop :=
  ∀ (s : State) (rest : List Move), s.moves = .internal :: rest → s.st = .complete →
    step s = .next (finish { s with moves := rest, result := validate s.frameBuf s.expId })

/-- R180: `Finish` loads the settle counter by the mode and the settle class, and posts at once only without a delay. -/
def Obligations.FinishSettlesByClass : Prop :=
  ∀ s : State,
    (s.mode = .receive → finish s = { s with settle := 0, st := .idle, done := true }) ∧
    (s.mode ≠ .receive → settleClassOf s.cfg s.reqInstr = .none →
      finish s = { s with settle := 0, st := .idle, done := true }) ∧
    (s.mode ≠ .receive → settleClassOf s.cfg s.reqInstr = .write → 0 < s.cfg.settleWriteTicks →
      finish s = { s with settle := s.cfg.settleWriteTicks, st := .settling }) ∧
    (s.mode ≠ .receive → settleClassOf s.cfg s.reqInstr = .reset → 0 < s.cfg.settleResetTicks →
      finish s = { s with settle := s.cfg.settleResetTicks, st := .settling }) ∧
    (s.mode ≠ .receive → settleClassOf s.cfg s.reqInstr = .write → s.cfg.settleWriteTicks = 0 →
      finish s = { s with settle := 0, st := .idle, done := true }) ∧
    (s.mode ≠ .receive → settleClassOf s.cfg s.reqInstr = .reset → s.cfg.settleResetTicks = 0 →
      finish s = { s with settle := 0, st := .idle, done := true })

/-- R181: the default settle classes, code by code, and `NONE` for every other code; and the delay of each class.
That the parameters of the reset machine use this table is the model's choice (assumption log 10). -/
def Obligations.DefaultSettleClasses : Prop :=
  Config.params.settleClass = Config.defaultSettleClass ∧
  (∀ p : Params, classTicks p .none = 0 ∧ classTicks p .write = p.settleWriteTicks ∧
    classTicks p .reset = p.settleResetTicks) ∧
  ∀ p : Params, p.settleClass = Config.defaultSettleClass →
    settleClassOf p 0x01 = .none ∧ settleClassOf p 0x02 = .none ∧ settleClassOf p 0x03 = .write ∧
    settleClassOf p 0x04 = .write ∧ settleClassOf p 0x05 = .write ∧ settleClassOf p 0x06 = .reset ∧
    settleClassOf p 0x08 = .reset ∧ settleClassOf p 0x82 = .none ∧ settleClassOf p 0x83 = .write ∧
    ∀ code : Byte, code ∉ ([0x01, 0x02, 0x03, 0x04, 0x05, 0x06, 0x08, 0x82, 0x83] : List Byte) →
      settleClassOf p code = .none

/-- R166: `FAILED` posts `ConnectionLost` for the command's id, without a settle delay. -/
def Obligations.FailedPostsConnectionLost : Prop :=
  ∀ (s : State) (rest : List Move), s.moves = .internal :: rest → s.st = .failed →
    step s = .next { s with
      moves := rest, st := .idle, done := true,
      result := { kind := .connectionLost, id := if s.mode = .send then 0xFE else s.expId, reason := .none,
                  errbits := 0, frame := none } }

/-- R182: `SETTLING` has no internal step while its counter is positive, a tick counts it down, the internal step at 0
posts the held result, and DISCONNECT leads to `FAILED`. That an internal move changes nothing while the counter is positive
is the model's choice (assumption log 4). -/
def Obligations.SettlingWaitsForItsCounter : Prop :=
  ∀ (s : State) (rest : List Move), s.st = .settling →
    (s.moves = .internal :: rest → 0 < s.settle → step s = .next { s with moves := rest }) ∧
    (s.moves = .tick :: rest → 0 < s.settle → step s = .next { s with moves := rest, settle := s.settle - 1 }) ∧
    (s.moves = .internal :: rest → s.settle = 0 → step s = .next { s with moves := rest, st := .idle, done := true }) ∧
    (s.moves = .command .disconnect :: rest → ∃ t, step s = .next t ∧ t.st = .failed)

/-- R266: after a settle delay is loaded, `done` and `ready` are withheld for exactly that many ticks and one internal
step, with the environment silent. The schedule of a silent environment, on which the exact counts rest, is the model's
choice (assumption log 3). -/
def Obligations.SettleDelayWithholdsDone : Prop :=
  ∀ s : State, s.st = .settling → s.moves = [] →
    (∀ j, j ≤ s.settle → runsTo j s { s with settle := s.settle - j }) ∧
    runsTo (s.settle + 1) s { s with settle := 0, st := .idle, done := true }

/-- R178: `Validate` runs the codec's checks, then the addressee check, then the error bits. -/
def Obligations.ValidateChecksInOrder : Prop :=
  ∀ (b : List Byte) (e : Byte),
    (∀ r, decodeFrame b = .invalidResponse r →
      validate b e = { kind := .invalidResponse, id := e, reason := r, errbits := 0, frame := none }) ∧
    (∀ i, decodeFrame b = .checksumError i →
      validate b e = { kind := .checksumError, id := i, reason := .none, errbits := 0, frame := none }) ∧
    (∀ f, decodeFrame b = .frame f →
      (f.id ≠ e →
        validate b e = { kind := .invalidResponse, id := e, reason := .idMismatch, errbits := 0, frame := none }) ∧
      (f.id = e → f.err ≠ 0 →
        validate b e = { kind := .hardwareError, id := f.id, reason := .none, errbits := f.err, frame := none }) ∧
      (f.id = e → f.err = 0 →
        validate b e = { kind := .ok, id := f.id, reason := .none, errbits := 0, frame := some f }))

/-! Rules about the whole machine. -/

/-- R184: a reply is `OK` exactly when its bytes are a frame from the expected id with a zero error byte and a correct
checksum; its parameters are then what the result carries. -/
def Obligations.OkExactlyForAGoodReply : Prop :=
  ∀ (b : List Byte) (e : Byte),
    (validate b e).kind = .ok ↔
      ∃ p : List Byte, p.length ≤ 253 ∧ b = encodeFrame e 0 p ∧
        (validate b e).frame = some
          { id := e, length := BitVec.ofNat 8 (p.length + 2), err := 0, params := p,
            checksum := checksum ([e, BitVec.ofNat 8 (p.length + 2), 0] ++ p) }

/-- The machine after reset satisfies the invariant. -/
def Obligations.ResetSatisfiesTheInvariant : Prop := Inv State.reset

/-- R43 and R147 (and R22, R27, R52, R55, R237, R245): every step keeps the invariant, from every state that has it,
whatever the environment does. -/
def Obligations.EveryStepKeepsTheInvariant : Prop :=
  ∀ s t : State, Inv s → step s = .next t → Inv t

/-- A step always has a next state: the block has no fault and refuses nothing (R240: a failure is a result). -/
def Obligations.EveryStepHasANextState : Prop := ∀ s : State, ∃ t : State, step s = .next t

/-- R234: a frame the synchronizer extracted is never rejected for its header or its length, and is `SHORT` exactly when
its `LEN` byte is 0 or 1 (R144): by the internal move of `COMPLETE`, whatever moves come after it, and by the step with no
move listed, which the model's choice of schedule makes the internal step (assumption log 3). -/
def Obligations.ExtractedFramesFailOnlyAsShort : Prop :=
  ∀ s t : State, Inv s → s.st = .complete → (s.moves = [] ∨ ∃ rest, s.moves = .internal :: rest) → step s = .next t →
    t.result.reason ≠ .header ∧ t.result.reason ≠ .length ∧
    (t.result.reason = .short ↔ (byteAt s.frameBuf 3).toNat < 2)

/-- R143: the first `FF FF` pair wins: the header search discards exactly the bytes before it. -/
def Obligations.FirstHeaderPairWins : Prop :=
  ∀ (s : State) (i : Nat), s.st = .awaitHeader → s.elapsed < s.cfg.timeoutTicks → i + 1 < s.rxq.length →
    (∀ j, j < i → ¬(byteAt s.rxq j = 0xFF ∧ byteAt s.rxq (j + 1) = 0xFF)) →
    byteAt s.rxq i = 0xFF → byteAt s.rxq (i + 1) = 0xFF →
    internalMoves (i + 1) s = { s with st := .awaitLength, rxq := s.rxq.drop i }

/-- R145: garbage without an `FF FF` pair (the pair across its end included) before a valid frame is discarded, and
exactly that frame is extracted. -/
def Obligations.GarbageBeforeAFrameIsDiscarded : Prop :=
  ∀ (s : State) (g f rest : List Byte) (fr : Frame), decodeFrame f = .frame fr →
    s.st = .awaitHeader → s.elapsed < s.cfg.timeoutTicks → s.rxq = g ++ f ++ rest →
    (∀ j, j < g.length → ¬(byteAt (g ++ f) j = 0xFF ∧ byteAt (g ++ f) (j + 1) = 0xFF)) →
    internalMoves (g.length + 3) s =
      { s with st := .complete, frameBuf := f, totalLen := BitVec.ofNat 9 f.length, rxq := rest }

/-- R144: a received `LEN` of 0 or 1 is extracted as 4 or 5 bytes and ends in `InvalidResponse(SHORT)`; the bytes after
them stay queued. -/
def Obligations.ShortLengthByteIsInvalidResponse : Prop :=
  ∀ (s : State) (id len : Byte) (tail : List Byte), s.st = .awaitLength → s.elapsed < s.cfg.timeoutTicks →
    s.rxq = 0xFF :: 0xFF :: id :: len :: tail → len.toNat < 2 → len.toNat ≤ tail.length →
    (internalMoves 3 s).result =
      { kind := .invalidResponse, id := s.expId, reason := .short, errbits := 0, frame := none } ∧
    (internalMoves 3 s).rxq = tail.drop len.toNat

/-- R146: no timeout before the deadline: in any run of any moves with fewer ticks than the deadline has left,
`TIMED_OUT` is not entered. -/
def Obligations.TimeoutIsNeverEarly : Prop :=
  ∀ (s t : State) (ms rest : List Move), s.moves = ms ++ rest → s.st ≠ .timedOut →
    s.elapsed + tickCount ms < s.cfg.timeoutTicks → runsTo ms.length s t → t.st ≠ .timedOut

/-- R183: every command in progress ends. From any state of the invariant, in any run of moves without a reset (commands,
bytes, ticks and internal moves in any order), `IDLE` with `done = 1` is reached if, among them and in this order, there are
the ticks of the deadline, two internal moves, the ticks of the longer settle delay, and one internal move. Ticks and
internal moves that keep coming give such a run (R141 assumes weak fairness for both). -/
def Obligations.EveryCommandEndsWithAResult : Prop :=
  ∀ (s : State) (ms rest : List Move), Inv s → s.st ≠ .idle → s.moves = ms ++ rest → .reset ∉ ms →
    (endingMoves s.cfg).Sublist ms →
    ∃ k t, k ≤ ms.length ∧ runsTo k s t ∧ ended t

/-- R66 and R68, with the conditions of R162 (R80 and R102): only an accepted TRANSACT or SEND transmits, exactly one frame,
encoded from its own operands, which passed every check; so no unassigned code, no illegal id and no more than 253
parameters are ever sent. No other step changes what was transmitted, but reset, which empties the history. That TRANSACT
sends 0x04 and 0x05 is inferred (D11, assumption log 11). -/
def Obligations.OnlyAcceptedRequestsTransmit : Prop :=
  ∀ s t : State, step s = .next t →
    writes t.txh = writes s.txh ∨
    (t.txh = [] ∧ s.moves.head? = some .reset) ∨
    (s.st = .idle ∧ s.connected = true ∧ ∃ id code p,
      ((s.moves.head? = some (.command (.transact id code p)) ∧ id.toNat ≤ 253 ∧
          code ∈ ([0x01, 0x02, 0x03, 0x04, 0x05, 0x06, 0x08] : List Byte)) ∨
        (s.moves.head? = some (.command (.send id code p)) ∧ id = 0xFE ∧ code ∈ ([0x82, 0x83] : List Byte))) ∧
      p.length ≤ 253 ∧ writes t.txh = writes s.txh ++ [encodeFrame id code p])

/-- R37: no step changes the parameters; and a step takes the first move off the environment's list, where one is listed.
Both are about the model's own fields, which are its choice: `cfg` (assumption log 1) and `moves` (log 2). -/
def Obligations.ParametersNeverChange : Prop :=
  ∀ s t : State, step s = .next t → t.cfg = s.cfg ∧ t.moves = s.moves.tail

/-- R65: the inbound queue is first-in first-out: a step appends the byte a producer move delivers at the tail, or
removes bytes from the head; and the outbound history only grows at its end, but for reset. -/
def Obligations.InboundQueueIsFirstInFirstOut : Prop :=
  ∀ s t : State, step s = .next t →
    ((∃ b, s.moves.head? = some (.rx b) ∧ t.rxq = s.rxq ++ [b]) ∨ ∃ n, t.rxq = s.rxq.drop n) ∧
    (s.txh <+: t.txh ∨ s.moves.head? = some .reset)

/-- R38: who sets and who clears the status flags. `done` is set by a command that ends in its acceptance, or by the internal
step of COMPLETE, TIMED_OUT, FAILED or SETTLING, and only where `IDLE` is reached. That a step with no move listed can be
that internal step is the model's choice of schedule (assumption log 3). -/
def Obligations.StatusFlagsChangeOnlyAsListed : Prop :=
  ∀ s t : State, step s = .next t →
    (t.connected = true → s.connected = true ∨ s.moves.head? = some (.command .connect)) ∧
    (t.connected = false → s.connected = false ∨ s.moves.head? = some (.command .disconnect) ∨
      s.moves.head? = some .reset) ∧
    (t.rxOverflow = true → s.rxOverflow = true ∨ ∃ b, s.moves.head? = some (.rx b)) ∧
    (t.rxOverflow = false → s.rxOverflow = false ∨ s.moves.head? = some (.command .connect) ∨
      s.moves.head? = some .reset) ∧
    (t.done = false → s.done = false ∨ (∃ c, s.moves.head? = some (.command c)) ∨ s.moves.head? = some .reset) ∧
    (t.done = true → s.done = true ∨
      (t.st = .idle ∧
        ((∃ c, s.moves.head? = some (.command c)) ∨
          ((s.moves = [] ∨ s.moves.head? = some .internal) ∧ s.st ∈ [.complete, .timedOut, .failed, .settling]))))

/-- R200: a whole unicast exchange. The host offers TRANSACT, the addressed device's good reply arrives byte by byte,
and four internal steps later the reply's parameters are the result, posted or held for the settle delay, for every
capacity of the queue that holds the reply. That TRANSACT sends 0x04 and 0x05 is inferred (D11, assumption log 11). -/
def Obligations.TransactReturnsTheDeviceReply : Prop :=
  ∀ (s : State) (id code : Byte) (p q : List Byte) (rest : List Move),
    s.st = .idle → s.connected = true → s.cfg.admissible = true →
    (∀ cap, s.cfg.rxqCap = some cap → q.length + 6 ≤ cap) →
    id.toNat ≤ 253 → code ∈ ([0x01, 0x02, 0x03, 0x04, 0x05, 0x06, 0x08] : List Byte) → p.length ≤ 253 →
    q.length ≤ 253 →
    s.moves = .command (.transact id code p) :: ((encodeFrame id 0 q).map .rx ++ (List.replicate 4 .internal ++ rest)) →
    runsTo (q.length + 11) s (finish { s with
      rxq := [], mode := .transact, expId := id, reqInstr := code, totalLen := BitVec.ofNat 9 (q.length + 6),
      elapsed := 0, frameBuf := encodeFrame id 0 q, done := false, st := .complete, moves := rest,
      txh := s.txh ++ [.flush] ++ [.write (encodeFrame id code p)],
      result := { kind := .ok, id := id, reason := .none, errbits := 0,
                  frame := some { id := id, length := BitVec.ofNat 8 (q.length + 2), err := 0, params := q,
                                  checksum := checksum ([id, BitVec.ofNat 8 (q.length + 2), 0] ++ q) } } })

/-- R176: RECEIVE sees the bytes already queued, and a frame it extracts is consumed whatever the outcome: a valid frame
from another device is `InvalidResponse(ID_MISMATCH)` for the id asked for, and is gone from the queue. -/
def Obligations.ReceiveConsumesAnotherDevicesReply : Prop :=
  ∀ (s : State) (i j err : Byte) (q tail : List Byte) (rest : List Move),
    s.st = .idle → s.connected = true → s.cfg.admissible = true → i.toNat ≤ 253 → i ≠ j → q.length ≤ 253 →
    s.rxq = encodeFrame j err q ++ tail →
    s.moves = .command (.receive i) :: (List.replicate 4 .internal ++ rest) →
    runsTo 5 s { s with
      rxq := tail, mode := .receive, expId := i, totalLen := BitVec.ofNat 9 (q.length + 6), elapsed := 0, settle := 0,
      frameBuf := encodeFrame j err q, done := true, moves := rest,
      result := { kind := .invalidResponse, id := i, reason := .idMismatch, errbits := 0, frame := none } }

/-- R20, R24, R230, R234 and R236: the numeric values of `st`, `mode`, the result kinds and the reasons. -/
def Obligations.NumericCodesOfTheStateElements : Prop :=
  [Phase.idle, .awaitHeader, .awaitLength, .awaitPayload, .complete, .timedOut, .failed, .settling].map
    (fun p => p.code.toNat) = [0, 1, 2, 3, 4, 5, 6, 7] ∧
  [Mode.none, .transact, .send, .receive].map (fun m => m.code.toNat) = [0, 1, 2, 3] ∧
  [Kind.none, .ok, .connectionLost, .timeout, .checksumError, .invalidResponse, .hardwareError, .invalidParameter].map
    (fun k => k.code.toNat) = [0, 1, 2, 3, 4, 5, 6, 7] ∧
  [Reason.none, .short, .header, .length, .idMismatch, .badId, .badInstr, .tooManyParams].map
    (fun r => (reasonCode r).toNat) = [0, 1, 2, 3, 4, 5, 6, 7]

/-- R84 and R187: a group write that the host's own checks let through is one SEND of `2 + k*(1+w)` parameters, each id
followed by its value; an empty batch or a value of the wrong width is refused by the host. -/
def Obligations.GroupWriteIsOneSend : Prop :=
  ∀ (addr width : Byte) (entries : List (Byte × List Byte)),
    ((entries = [] ∨ ∃ e ∈ entries, e.2.length ≠ width.toNat) → groupWrite addr width entries = none) ∧
    (entries ≠ [] → (∀ e ∈ entries, e.2.length = width.toNat) →
      ∃ p, groupWrite addr width entries = some (.send 0xFE 0x83 p) ∧
        p.length = 2 + entries.length * (1 + width.toNat) ∧
        p = addr :: width :: (entries.map fun e => e.1 :: e.2).flatten)

/-- R183 with a bound, for a silent environment: from any state of the invariant with a command in progress and no move
listed, `IDLE` with `done = 1` is reached within a number of steps the queue, the deadline and the settle delays give. The
schedule of a silent environment is the model's choice (assumption log 3). -/
def Obligations.SilentEnvironmentEndsEveryCommand : Prop :=
  ∀ s : State, Inv s → s.st ≠ .idle → s.moves = [] →
    ∃ k t, k ≤ s.rxq.length + s.cfg.timeoutTicks + max s.cfg.settleWriteTicks s.cfg.settleResetTicks + 5 ∧
      runsTo k s t ∧ ended t
end

