-- ==== Sys2Proof/Laws/Codec.lean ====
section
/-! SUPPORT. One lemma per function of the codec: the bytes of an encoded frame by index, the slices `Decode` takes from it,
and what each outcome of `Decode` says about the bytes. -/

namespace Sys2Proof

theorem encodeFrame_cons (id x : Byte) (p : List Byte) :
    encodeFrame id x p =
      Config.hdr0 :: Config.hdr1 :: id :: lenByte p.length :: x :: (p ++ [checksum (frameBody id x p)]) := by
  simp [encodeFrame, frameBody]

@[simp] theorem encodeFrame_length (id x : Byte) (p : List Byte) :
    (encodeFrame id x p).length = p.length + 6 := by
  simp [encodeFrame_cons]

theorem lenByte_toNat {n : Nat} (h : n ≤ Config.maxParams) : (lenByte n).toNat = n + Config.lenOverhead := by
  simp only [Config.maxParams, Config.lenOverhead, lenByte, BitVec.toNat_ofNat] at *
  omega

theorem byteAt_eq_getElem {xs : List Byte} {i : Nat} (h : i < xs.length) : byteAt xs i = xs[i] := by
  simp [byteAt, h]

@[simp] theorem byteAt_cons_zero (a : Byte) (xs : List Byte) : byteAt (a :: xs) 0 = a := rfl

@[simp] theorem byteAt_cons_succ (a : Byte) (xs : List Byte) (i : Nat) : byteAt (a :: xs) (i + 1) = byteAt xs i := by
  simp [byteAt]

theorem byteAt_append_left {xs ys : List Byte} {i : Nat} (h : i < xs.length) :
    byteAt (xs ++ ys) i = byteAt xs i := by
  simp [byteAt, List.getElem?_append_left h]

theorem byteAt_append_right (xs ys : List Byte) (i : Nat) : byteAt (xs ++ ys) (xs.length + i) = byteAt ys i := by
  simp [byteAt, List.getElem?_append_right]

theorem byteAt_drop (xs : List Byte) (n i : Nat) : byteAt (xs.drop n) i = byteAt xs (n + i) := by
  simp [byteAt]

@[simp] theorem byteAt_encodeFrame_zero (id x : Byte) (p : List Byte) :
    byteAt (encodeFrame id x p) 0 = Config.hdr0 := rfl

@[simp] theorem byteAt_encodeFrame_one (id x : Byte) (p : List Byte) :
    byteAt (encodeFrame id x p) 1 = Config.hdr1 := rfl

@[simp] theorem byteAt_encodeFrame_two (id x : Byte) (p : List Byte) : byteAt (encodeFrame id x p) 2 = id := rfl

@[simp] theorem byteAt_encodeFrame_three (id x : Byte) (p : List Byte) :
    byteAt (encodeFrame id x p) 3 = lenByte p.length := rfl

@[simp] theorem byteAt_encodeFrame_four (id x : Byte) (p : List Byte) : byteAt (encodeFrame id x p) 4 = x := rfl

@[simp] theorem byteAt_encodeFrame_last (id x : Byte) (p : List Byte) :
    byteAt (encodeFrame id x p) (p.length + 5) = checksum (frameBody id x p) := by
  simp [encodeFrame_cons, byteAt]

/-- The bytes the checksum covers are the frame's body. -/
@[simp] theorem slice_encodeFrame_body (id x : Byte) (p : List Byte) :
    slice (encodeFrame id x p) 2 (p.length + 4) = frameBody id x p := by
  have h : p.length + 4 + 1 - 2 = p.length + 3 := by omega
  simp [slice, encodeFrame_cons, frameBody, h]

/-- The parameters are bytes 5 to `N-2`. -/
@[simp] theorem slice_encodeFrame_params (id x : Byte) (p : List Byte) :
    slice (encodeFrame id x p) 5 (p.length + 4) = p := by
  have h : p.length + 4 + 1 - 5 = p.length := by omega
  simp [slice, encodeFrame_cons, h]

/-- What `Decode` says about the bytes in each of its outcomes (R104). -/
theorem decodeFrame_cases (b : List Byte) :
    (decodeFrame b = .invalidResponse .short ∧ b.length < 6) ∨
    (decodeFrame b = .invalidResponse .header ∧ 6 ≤ b.length ∧ ¬(byteAt b 0 = 0xFF ∧ byteAt b 1 = 0xFF)) ∨
    (decodeFrame b = .invalidResponse .length ∧ 6 ≤ b.length ∧ byteAt b 0 = 0xFF ∧ byteAt b 1 = 0xFF ∧
      b.length ≠ (byteAt b 3).toNat + 4) ∨
    (decodeFrame b = .checksumError (byteAt b 2) ∧ 6 ≤ b.length ∧ byteAt b 0 = 0xFF ∧ byteAt b 1 = 0xFF ∧
      b.length = (byteAt b 3).toNat + 4 ∧ byteAt b (b.length - 1) ≠ checksum (slice b 2 (b.length - 2))) ∨
    (decodeFrame b = .frame
        { id := byteAt b 2, length := byteAt b 3, err := byteAt b 4, params := slice b 5 (b.length - 2),
          checksum := byteAt b (b.length - 1) } ∧
      6 ≤ b.length ∧ byteAt b 0 = 0xFF ∧ byteAt b 1 = 0xFF ∧ b.length = (byteAt b 3).toNat + 4 ∧
      byteAt b (b.length - 1) = checksum (slice b 2 (b.length - 2))) := by
  unfold decodeFrame
  split_ifs with h1 h2 h3 h4 <;>
    simp only [Config.minFrame, Config.hdr0, Config.hdr1, Config.frameOverhead, not_lt, not_or, ne_eq, not_not] at *
  · exact .inl ⟨trivial, h1⟩
  · exact .inr (.inl ⟨trivial, h1, by tauto⟩)
  · exact .inr (.inr (.inl ⟨trivial, h1, h2.1, h2.2, h3⟩))
  · exact .inr (.inr (.inr (.inl ⟨trivial, h1, h2.1, h2.2, h3, h4⟩)))
  · exact .inr (.inr (.inr (.inr ⟨trivial, h1, h2.1, h2.2, h3, h4⟩)))

end Sys2Proof
end

