-- ==== Sys2Proof/Laws/Decode.lean ====
section
/-! SUPPORT. The opcode table: no two rows overlap, a row's code finds its row, and what a found row says. -/

namespace Sys2Proof

/-- No byte matches two rows of the opcode table (30_encoding.md R79). -/
theorem opcodeTable_disjoint :
    opcodeTable.Pairwise fun r q => ∀ c : Byte, ¬(c &&& r.mask = r.code ∧ c &&& q.mask = q.code) := by
  have h : ∀ c : Byte, c &&& 255#8 = c := fun c => BitVec.and_allOnes
  simp [opcodeTable, h]

/-- What a found row says: the code is the instruction's and the operands are the ones given. -/
theorem instrOf_eq_some {code id : Byte} {p : List Byte} {i : Instr} (h : instrOf code id p = some i) :
    opcode i = code ∧ i.id = id ∧ i.params = p := by
  simp only [instrOf, opcodeTable, List.find?_cons, List.find?_nil, Option.map_eq_some_iff] at h
  obtain ⟨r, hr, rfl⟩ := h
  repeat' split at hr
  all_goals first
    | (cases hr; rename_i hc
       rw [show code &&& 0xFF = code from BitVec.and_allOnes] at hc
       exact ⟨(eq_of_beq hc).symm, rfl, rfl⟩)
    | cases hr

/-- An instruction is found from its own code and operands. -/
theorem instrOf_opcode (i : Instr) : instrOf (opcode i) i.id i.params = some i := by
  cases i <;> simp [instrOf, opcodeTable, opcode, Instr.id, Instr.params]

/-- R79: the instructions TRANSACT sends are those of the seven unicast codes. -/
theorem sender_transact_iff (i : Instr) :
    i.sender = .transact ↔ opcode i ∈ ([0x01, 0x02, 0x03, 0x04, 0x05, 0x06, 0x08] : List Byte) := by
  cases i <;> simp [Instr.sender, opcode]

/-- R79: the instructions SEND sends are those of the two group codes. -/
theorem sender_send_iff (i : Instr) : i.sender = .send ↔ opcode i ∈ ([0x82, 0x83] : List Byte) := by
  cases i <;> simp [Instr.sender, opcode]

end Sys2Proof
end

