-- ==== Sys2Proof/Laws/Operands.lean ====
section
/-! SUPPORT. What each acceptance check answers (42_transaction.md R162), one lemma per line of the rule. -/

namespace Sys2Proof.Machine

open Sys2Proof

section
variable {c : Bool} {id instr : Byte} {p : List Byte}

theorem checkTransact_badId (h : 253 < id.toNat) :
    checkTransact c id instr p = some (.failure .invalidParameter id .badId) := if_pos h

theorem checkTransact_badInstr (h : id.toNat ≤ 253) (hi : instr ∉ unicastCodes) :
    checkTransact c id instr p = some (.failure .invalidParameter id .badInstr) := by
  have h' : ¬Config.maxId < id.toNat := Nat.not_lt.mpr h
  rw [checkTransact, if_neg h', if_pos hi]

theorem checkTransact_tooManyParams (h : id.toNat ≤ 253) (hi : instr ∈ unicastCodes) (hp : 253 < p.length) :
    checkTransact c id instr p = some (.failure .invalidParameter id .tooManyParams) := by
  have h' : ¬Config.maxId < id.toNat := Nat.not_lt.mpr h
  rw [checkTransact, if_neg h', if_neg (not_not.mpr hi), if_pos (show Config.maxParams < p.length from hp)]

theorem checkTransact_connection (h : id.toNat ≤ 253) (hi : instr ∈ unicastCodes) (hp : p.length ≤ 253) :
    checkTransact c id instr p = checkConnection c id := by
  have h' : ¬Config.maxId < id.toNat := Nat.not_lt.mpr h
  rw [checkTransact, if_neg h', if_neg (not_not.mpr hi),
    if_neg (show ¬Config.maxParams < p.length from Nat.not_lt.mpr hp)]

theorem checkSend_badId (h : id ≠ 0xFE) :
    checkSend c id instr p = some (.failure .invalidParameter id .badId) := if_pos h

theorem checkSend_badInstr (hi : instr ∉ groupCodes) :
    checkSend c 0xFE instr p = some (.failure .invalidParameter 0xFE .badInstr) := by
  rw [checkSend, if_neg (show ¬(0xFE : Byte) ≠ Config.broadcastId from not_not.mpr rfl), if_pos hi]

theorem checkSend_tooManyParams (hi : instr ∈ groupCodes) (hp : 253 < p.length) :
    checkSend c 0xFE instr p = some (.failure .invalidParameter 0xFE .tooManyParams) := by
  rw [checkSend, if_neg (show ¬(0xFE : Byte) ≠ Config.broadcastId from not_not.mpr rfl), if_neg (not_not.mpr hi), if_pos (show Config.maxParams < p.length from hp)]

theorem checkSend_connection (hi : instr ∈ groupCodes) (hp : p.length ≤ 253) :
    checkSend c 0xFE instr p = checkConnection c 0xFE := by
  rw [checkSend, if_neg (show ¬(0xFE : Byte) ≠ Config.broadcastId from not_not.mpr rfl), if_neg (not_not.mpr hi),
    if_neg (show ¬Config.maxParams < p.length from Nat.not_lt.mpr hp)]

theorem checkReceive_badId (h : 253 < id.toNat) :
    checkReceive c id = some (.failure .invalidParameter id .badId) := if_pos h

theorem checkReceive_connection (h : id.toNat ≤ 253) : checkReceive c id = checkConnection c id := by
  have h' : ¬Config.maxId < id.toNat := Nat.not_lt.mpr h
  rw [checkReceive, if_neg h']

@[simp] theorem checkConnection_open (id : Byte) : checkConnection true id = none := rfl

@[simp] theorem checkConnection_closed (id : Byte) :
    checkConnection false id = some (.failure .connectionLost id .none) := rfl

/-- A TRANSACT that passes its check meets every condition of R162. -/
theorem checkTransact_pass (h : checkTransact c id instr p = none) :
    id.toNat ≤ 253 ∧ instr ∈ unicastCodes ∧ p.length ≤ 253 ∧ c = true := by
  unfold checkTransact checkConnection at h
  split_ifs at h with h1 h2 h3 h4
  exact ⟨Nat.not_lt.mp h1, h2, Nat.not_lt.mp h3, h4⟩

/-- A SEND that passes its check meets every condition of R162. -/
theorem checkSend_pass (h : checkSend c id instr p = none) :
    id = 0xFE ∧ instr ∈ groupCodes ∧ p.length ≤ 253 ∧ c = true := by
  unfold checkSend checkConnection at h
  split_ifs at h with h1 h2 h3 h4
  exact ⟨not_not.mp h1, h2, Nat.not_lt.mp h3, h4⟩

/-- A RECEIVE that passes its check meets every condition of R162. -/
theorem checkReceive_pass (h : checkReceive c id = none) : id.toNat ≤ 253 ∧ c = true := by
  unfold checkReceive checkConnection at h
  split_ifs at h with h1 h2
  exact ⟨Nat.not_lt.mp h1, h2⟩

end

end Sys2Proof.Machine
end

