-- ==== Sys2Proof/Laws/State.lean ====
section
/-! SUPPORT. One lemma per field for each operation that updates the state unconditionally: what it writes and what it leaves. -/

namespace Sys2Proof.Machine

open Sys2Proof

@[simp] theorem rxDiscard_st (s : State) : (rxDiscard s).st = s.st := rfl
@[simp] theorem rxDiscard_connected (s : State) : (rxDiscard s).connected = s.connected := rfl
@[simp] theorem rxDiscard_rxq (s : State) : (rxDiscard s).rxq = s.rxq.drop 1 := rfl
@[simp] theorem rxDiscard_rxOverflow (s : State) : (rxDiscard s).rxOverflow = s.rxOverflow := rfl
@[simp] theorem rxDiscard_mode (s : State) : (rxDiscard s).mode = s.mode := rfl
@[simp] theorem rxDiscard_expId (s : State) : (rxDiscard s).expId = s.expId := rfl
@[simp] theorem rxDiscard_reqInstr (s : State) : (rxDiscard s).reqInstr = s.reqInstr := rfl
@[simp] theorem rxDiscard_totalLen (s : State) : (rxDiscard s).totalLen = s.totalLen := rfl
@[simp] theorem rxDiscard_elapsed (s : State) : (rxDiscard s).elapsed = s.elapsed := rfl
@[simp] theorem rxDiscard_settle (s : State) : (rxDiscard s).settle = s.settle := rfl
@[simp] theorem rxDiscard_frameBuf (s : State) : (rxDiscard s).frameBuf = s.frameBuf := rfl
@[simp] theorem rxDiscard_result (s : State) : (rxDiscard s).result = s.result := rfl
@[simp] theorem rxDiscard_done (s : State) : (rxDiscard s).done = s.done := rfl
@[simp] theorem rxDiscard_txh (s : State) : (rxDiscard s).txh = s.txh := rfl
@[simp] theorem rxDiscard_cfg (s : State) : (rxDiscard s).cfg = s.cfg := rfl
@[simp] theorem rxDiscard_moves (s : State) : (rxDiscard s).moves = s.moves := rfl

@[simp] theorem rxDrop_st (n : Nat) (s : State) : (rxDrop n s).st = s.st := rfl
@[simp] theorem rxDrop_connected (n : Nat) (s : State) : (rxDrop n s).connected = s.connected := rfl
@[simp] theorem rxDrop_rxq (n : Nat) (s : State) : (rxDrop n s).rxq = s.rxq.drop n := rfl
@[simp] theorem rxDrop_rxOverflow (n : Nat) (s : State) : (rxDrop n s).rxOverflow = s.rxOverflow := rfl
@[simp] theorem rxDrop_mode (n : Nat) (s : State) : (rxDrop n s).mode = s.mode := rfl
@[simp] theorem rxDrop_expId (n : Nat) (s : State) : (rxDrop n s).expId = s.expId := rfl
@[simp] theorem rxDrop_reqInstr (n : Nat) (s : State) : (rxDrop n s).reqInstr = s.reqInstr := rfl
@[simp] theorem rxDrop_totalLen (n : Nat) (s : State) : (rxDrop n s).totalLen = s.totalLen := rfl
@[simp] theorem rxDrop_elapsed (n : Nat) (s : State) : (rxDrop n s).elapsed = s.elapsed := rfl
@[simp] theorem rxDrop_settle (n : Nat) (s : State) : (rxDrop n s).settle = s.settle := rfl
@[simp] theorem rxDrop_frameBuf (n : Nat) (s : State) : (rxDrop n s).frameBuf = s.frameBuf := rfl
@[simp] theorem rxDrop_result (n : Nat) (s : State) : (rxDrop n s).result = s.result := rfl
@[simp] theorem rxDrop_done (n : Nat) (s : State) : (rxDrop n s).done = s.done := rfl
@[simp] theorem rxDrop_txh (n : Nat) (s : State) : (rxDrop n s).txh = s.txh := rfl
@[simp] theorem rxDrop_cfg (n : Nat) (s : State) : (rxDrop n s).cfg = s.cfg := rfl
@[simp] theorem rxDrop_moves (n : Nat) (s : State) : (rxDrop n s).moves = s.moves := rfl

@[simp] theorem rxFlush_st (s : State) : (rxFlush s).st = s.st := rfl
@[simp] theorem rxFlush_connected (s : State) : (rxFlush s).connected = s.connected := rfl
@[simp] theorem rxFlush_rxq (s : State) : (rxFlush s).rxq = [] := rfl
@[simp] theorem rxFlush_rxOverflow (s : State) : (rxFlush s).rxOverflow = s.rxOverflow := rfl
@[simp] theorem rxFlush_mode (s : State) : (rxFlush s).mode = s.mode := rfl
@[simp] theorem rxFlush_expId (s : State) : (rxFlush s).expId = s.expId := rfl
@[simp] theorem rxFlush_reqInstr (s : State) : (rxFlush s).reqInstr = s.reqInstr := rfl
@[simp] theorem rxFlush_totalLen (s : State) : (rxFlush s).totalLen = s.totalLen := rfl
@[simp] theorem rxFlush_elapsed (s : State) : (rxFlush s).elapsed = s.elapsed := rfl
@[simp] theorem rxFlush_settle (s : State) : (rxFlush s).settle = s.settle := rfl
@[simp] theorem rxFlush_frameBuf (s : State) : (rxFlush s).frameBuf = s.frameBuf := rfl
@[simp] theorem rxFlush_result (s : State) : (rxFlush s).result = s.result := rfl
@[simp] theorem rxFlush_done (s : State) : (rxFlush s).done = s.done := rfl
@[simp] theorem rxFlush_txh (s : State) : (rxFlush s).txh = s.txh ++ [.flush] := rfl
@[simp] theorem rxFlush_cfg (s : State) : (rxFlush s).cfg = s.cfg := rfl
@[simp] theorem rxFlush_moves (s : State) : (rxFlush s).moves = s.moves := rfl

@[simp] theorem txWrite_st (bytes : List Byte) (s : State) : (txWrite bytes s).st = s.st := rfl
@[simp] theorem txWrite_connected (bytes : List Byte) (s : State) : (txWrite bytes s).connected = s.connected := rfl
@[simp] theorem txWrite_rxq (bytes : List Byte) (s : State) : (txWrite bytes s).rxq = s.rxq := rfl
@[simp] theorem txWrite_rxOverflow (bytes : List Byte) (s : State) : (txWrite bytes s).rxOverflow = s.rxOverflow := rfl
@[simp] theorem txWrite_mode (bytes : List Byte) (s : State) : (txWrite bytes s).mode = s.mode := rfl
@[simp] theorem txWrite_expId (bytes : List Byte) (s : State) : (txWrite bytes s).expId = s.expId := rfl
@[simp] theorem txWrite_reqInstr (bytes : List Byte) (s : State) : (txWrite bytes s).reqInstr = s.reqInstr := rfl
@[simp] theorem txWrite_totalLen (bytes : List Byte) (s : State) : (txWrite bytes s).totalLen = s.totalLen := rfl
@[simp] theorem txWrite_elapsed (bytes : List Byte) (s : State) : (txWrite bytes s).elapsed = s.elapsed := rfl
@[simp] theorem txWrite_settle (bytes : List Byte) (s : State) : (txWrite bytes s).settle = s.settle := rfl
@[simp] theorem txWrite_frameBuf (bytes : List Byte) (s : State) : (txWrite bytes s).frameBuf = s.frameBuf := rfl
@[simp] theorem txWrite_result (bytes : List Byte) (s : State) : (txWrite bytes s).result = s.result := rfl
@[simp] theorem txWrite_done (bytes : List Byte) (s : State) : (txWrite bytes s).done = s.done := rfl
@[simp] theorem txWrite_txh (bytes : List Byte) (s : State) : (txWrite bytes s).txh = s.txh ++ [.write bytes] := rfl
@[simp] theorem txWrite_cfg (bytes : List Byte) (s : State) : (txWrite bytes s).cfg = s.cfg := rfl
@[simp] theorem txWrite_moves (bytes : List Byte) (s : State) : (txWrite bytes s).moves = s.moves := rfl

@[simp] theorem post_st (r : Result) (s : State) : (post r s).st = s.st := rfl
@[simp] theorem post_connected (r : Result) (s : State) : (post r s).connected = s.connected := rfl
@[simp] theorem post_rxq (r : Result) (s : State) : (post r s).rxq = s.rxq := rfl
@[simp] theorem post_rxOverflow (r : Result) (s : State) : (post r s).rxOverflow = s.rxOverflow := rfl
@[simp] theorem post_mode (r : Result) (s : State) : (post r s).mode = s.mode := rfl
@[simp] theorem post_expId (r : Result) (s : State) : (post r s).expId = s.expId := rfl
@[simp] theorem post_reqInstr (r : Result) (s : State) : (post r s).reqInstr = s.reqInstr := rfl
@[simp] theorem post_totalLen (r : Result) (s : State) : (post r s).totalLen = s.totalLen := rfl
@[simp] theorem post_elapsed (r : Result) (s : State) : (post r s).elapsed = s.elapsed := rfl
@[simp] theorem post_settle (r : Result) (s : State) : (post r s).settle = s.settle := rfl
@[simp] theorem post_frameBuf (r : Result) (s : State) : (post r s).frameBuf = s.frameBuf := rfl
@[simp] theorem post_result (r : Result) (s : State) : (post r s).result = r := rfl
@[simp] theorem post_done (r : Result) (s : State) : (post r s).done = true := rfl
@[simp] theorem post_txh (r : Result) (s : State) : (post r s).txh = s.txh := rfl
@[simp] theorem post_cfg (r : Result) (s : State) : (post r s).cfg = s.cfg := rfl
@[simp] theorem post_moves (r : Result) (s : State) : (post r s).moves = s.moves := rfl

@[simp] theorem acknowledge_st (s : State) : (acknowledge s).st = s.st := rfl
@[simp] theorem acknowledge_connected (s : State) : (acknowledge s).connected = s.connected := rfl
@[simp] theorem acknowledge_rxq (s : State) : (acknowledge s).rxq = s.rxq := rfl
@[simp] theorem acknowledge_rxOverflow (s : State) : (acknowledge s).rxOverflow = s.rxOverflow := rfl
@[simp] theorem acknowledge_mode (s : State) : (acknowledge s).mode = s.mode := rfl
@[simp] theorem acknowledge_expId (s : State) : (acknowledge s).expId = s.expId := rfl
@[simp] theorem acknowledge_reqInstr (s : State) : (acknowledge s).reqInstr = s.reqInstr := rfl
@[simp] theorem acknowledge_totalLen (s : State) : (acknowledge s).totalLen = s.totalLen := rfl
@[simp] theorem acknowledge_elapsed (s : State) : (acknowledge s).elapsed = s.elapsed := rfl
@[simp] theorem acknowledge_settle (s : State) : (acknowledge s).settle = s.settle := rfl
@[simp] theorem acknowledge_frameBuf (s : State) : (acknowledge s).frameBuf = s.frameBuf := rfl
@[simp] theorem acknowledge_result (s : State) : (acknowledge s).result = s.result := rfl
@[simp] theorem acknowledge_done (s : State) : (acknowledge s).done = false := rfl
@[simp] theorem acknowledge_txh (s : State) : (acknowledge s).txh = s.txh := rfl
@[simp] theorem acknowledge_cfg (s : State) : (acknowledge s).cfg = s.cfg := rfl
@[simp] theorem acknowledge_moves (s : State) : (acknowledge s).moves = s.moves := rfl

@[simp] theorem tearDown_st (s : State) : (tearDown s).st = s.st := rfl
@[simp] theorem tearDown_connected (s : State) : (tearDown s).connected = false := rfl
@[simp] theorem tearDown_rxq (s : State) : (tearDown s).rxq = [] := rfl
@[simp] theorem tearDown_rxOverflow (s : State) : (tearDown s).rxOverflow = s.rxOverflow := rfl
@[simp] theorem tearDown_mode (s : State) : (tearDown s).mode = s.mode := rfl
@[simp] theorem tearDown_expId (s : State) : (tearDown s).expId = s.expId := rfl
@[simp] theorem tearDown_reqInstr (s : State) : (tearDown s).reqInstr = s.reqInstr := rfl
@[simp] theorem tearDown_totalLen (s : State) : (tearDown s).totalLen = s.totalLen := rfl
@[simp] theorem tearDown_elapsed (s : State) : (tearDown s).elapsed = s.elapsed := rfl
@[simp] theorem tearDown_settle (s : State) : (tearDown s).settle = s.settle := rfl
@[simp] theorem tearDown_frameBuf (s : State) : (tearDown s).frameBuf = s.frameBuf := rfl
@[simp] theorem tearDown_result (s : State) : (tearDown s).result = s.result := rfl
@[simp] theorem tearDown_done (s : State) : (tearDown s).done = s.done := rfl
@[simp] theorem tearDown_txh (s : State) : (tearDown s).txh = s.txh := rfl
@[simp] theorem tearDown_cfg (s : State) : (tearDown s).cfg = s.cfg := rfl
@[simp] theorem tearDown_moves (s : State) : (tearDown s).moves = s.moves := rfl

@[simp] theorem runConnect_st (s : State) : (runConnect s).st = s.st := rfl
@[simp] theorem runConnect_connected (s : State) : (runConnect s).connected = true := rfl
@[simp] theorem runConnect_rxq (s : State) : (runConnect s).rxq = s.rxq := rfl
@[simp] theorem runConnect_rxOverflow (s : State) : (runConnect s).rxOverflow = false := rfl
@[simp] theorem runConnect_mode (s : State) : (runConnect s).mode = s.mode := rfl
@[simp] theorem runConnect_expId (s : State) : (runConnect s).expId = s.expId := rfl
@[simp] theorem runConnect_reqInstr (s : State) : (runConnect s).reqInstr = s.reqInstr := rfl
@[simp] theorem runConnect_totalLen (s : State) : (runConnect s).totalLen = s.totalLen := rfl
@[simp] theorem runConnect_elapsed (s : State) : (runConnect s).elapsed = s.elapsed := rfl
@[simp] theorem runConnect_settle (s : State) : (runConnect s).settle = s.settle := rfl
@[simp] theorem runConnect_frameBuf (s : State) : (runConnect s).frameBuf = s.frameBuf := rfl
@[simp] theorem runConnect_result (s : State) : (runConnect s).result = .okay 0 := rfl
@[simp] theorem runConnect_done (s : State) : (runConnect s).done = true := rfl
@[simp] theorem runConnect_txh (s : State) : (runConnect s).txh = s.txh := rfl
@[simp] theorem runConnect_cfg (s : State) : (runConnect s).cfg = s.cfg := rfl
@[simp] theorem runConnect_moves (s : State) : (runConnect s).moves = s.moves := rfl

@[simp] theorem runReceive_st (id : Byte) (s : State) : (runReceive id s).st = .awaitHeader := rfl
@[simp] theorem runReceive_connected (id : Byte) (s : State) : (runReceive id s).connected = s.connected := rfl
@[simp] theorem runReceive_rxq (id : Byte) (s : State) : (runReceive id s).rxq = s.rxq := rfl
@[simp] theorem runReceive_rxOverflow (id : Byte) (s : State) : (runReceive id s).rxOverflow = s.rxOverflow := rfl
@[simp] theorem runReceive_mode (id : Byte) (s : State) : (runReceive id s).mode = .receive := rfl
@[simp] theorem runReceive_expId (id : Byte) (s : State) : (runReceive id s).expId = id := rfl
@[simp] theorem runReceive_reqInstr (id : Byte) (s : State) : (runReceive id s).reqInstr = s.reqInstr := rfl
@[simp] theorem runReceive_totalLen (id : Byte) (s : State) : (runReceive id s).totalLen = s.totalLen := rfl
@[simp] theorem runReceive_elapsed (id : Byte) (s : State) : (runReceive id s).elapsed = 0 := rfl
@[simp] theorem runReceive_settle (id : Byte) (s : State) : (runReceive id s).settle = s.settle := rfl
@[simp] theorem runReceive_frameBuf (id : Byte) (s : State) : (runReceive id s).frameBuf = s.frameBuf := rfl
@[simp] theorem runReceive_result (id : Byte) (s : State) : (runReceive id s).result = s.result := rfl
@[simp] theorem runReceive_done (id : Byte) (s : State) : (runReceive id s).done = s.done := rfl
@[simp] theorem runReceive_txh (id : Byte) (s : State) : (runReceive id s).txh = s.txh := rfl
@[simp] theorem runReceive_cfg (id : Byte) (s : State) : (runReceive id s).cfg = s.cfg := rfl
@[simp] theorem runReceive_moves (id : Byte) (s : State) : (runReceive id s).moves = s.moves := rfl

@[simp] theorem runTransact_st (id instr : Byte) (params : List Byte) (s : State) : (runTransact id instr params s).st = .awaitHeader := rfl
@[simp] theorem runTransact_connected (id instr : Byte) (params : List Byte) (s : State) : (runTransact id instr params s).connected = s.connected := rfl
@[simp] theorem runTransact_rxq (id instr : Byte) (params : List Byte) (s : State) : (runTransact id instr params s).rxq = [] := rfl
@[simp] theorem runTransact_rxOverflow (id instr : Byte) (params : List Byte) (s : State) : (runTransact id instr params s).rxOverflow = s.rxOverflow := rfl
@[simp] theorem runTransact_mode (id instr : Byte) (params : List Byte) (s : State) : (runTransact id instr params s).mode = .transact := rfl
@[simp] theorem runTransact_expId (id instr : Byte) (params : List Byte) (s : State) : (runTransact id instr params s).expId = id := rfl
@[simp] theorem runTransact_reqInstr (id instr : Byte) (params : List Byte) (s : State) : (runTransact id instr params s).reqInstr = instr := rfl
@[simp] theorem runTransact_totalLen (id instr : Byte) (params : List Byte) (s : State) : (runTransact id instr params s).totalLen = s.totalLen := rfl
@[simp] theorem runTransact_elapsed (id instr : Byte) (params : List Byte) (s : State) : (runTransact id instr params s).elapsed = 0 := rfl
@[simp] theorem runTransact_settle (id instr : Byte) (params : List Byte) (s : State) : (runTransact id instr params s).settle = s.settle := rfl
@[simp] theorem runTransact_frameBuf (id instr : Byte) (params : List Byte) (s : State) : (runTransact id instr params s).frameBuf = s.frameBuf := rfl
@[simp] theorem runTransact_result (id instr : Byte) (params : List Byte) (s : State) : (runTransact id instr params s).result = s.result := rfl
@[simp] theorem runTransact_done (id instr : Byte) (params : List Byte) (s : State) : (runTransact id instr params s).done = s.done := rfl
@[simp] theorem runTransact_txh (id instr : Byte) (params : List Byte) (s : State) : (runTransact id instr params s).txh = s.txh ++ [.flush] ++ [.write (encodeFrame id instr params)] := rfl
@[simp] theorem runTransact_cfg (id instr : Byte) (params : List Byte) (s : State) : (runTransact id instr params s).cfg = s.cfg := rfl
@[simp] theorem runTransact_moves (id instr : Byte) (params : List Byte) (s : State) : (runTransact id instr params s).moves = s.moves := rfl

@[simp] theorem failedStep_st (s : State) : (failedStep s).st = .idle := rfl
@[simp] theorem failedStep_connected (s : State) : (failedStep s).connected = s.connected := rfl
@[simp] theorem failedStep_rxq (s : State) : (failedStep s).rxq = s.rxq := rfl
@[simp] theorem failedStep_rxOverflow (s : State) : (failedStep s).rxOverflow = s.rxOverflow := rfl
@[simp] theorem failedStep_mode (s : State) : (failedStep s).mode = s.mode := rfl
@[simp] theorem failedStep_expId (s : State) : (failedStep s).expId = s.expId := rfl
@[simp] theorem failedStep_reqInstr (s : State) : (failedStep s).reqInstr = s.reqInstr := rfl
@[simp] theorem failedStep_totalLen (s : State) : (failedStep s).totalLen = s.totalLen := rfl
@[simp] theorem failedStep_elapsed (s : State) : (failedStep s).elapsed = s.elapsed := rfl
@[simp] theorem failedStep_settle (s : State) : (failedStep s).settle = s.settle := rfl
@[simp] theorem failedStep_frameBuf (s : State) : (failedStep s).frameBuf = s.frameBuf := rfl
@[simp] theorem failedStep_result (s : State) : (failedStep s).result = .failure .connectionLost (abortedId s) .none := rfl
@[simp] theorem failedStep_done (s : State) : (failedStep s).done = true := rfl
@[simp] theorem failedStep_txh (s : State) : (failedStep s).txh = s.txh := rfl
@[simp] theorem failedStep_cfg (s : State) : (failedStep s).cfg = s.cfg := rfl
@[simp] theorem failedStep_moves (s : State) : (failedStep s).moves = s.moves := rfl

@[simp] theorem resetBlock_st (s : State) : (resetBlock s).st = .idle := rfl
@[simp] theorem resetBlock_connected (s : State) : (resetBlock s).connected = false := rfl
@[simp] theorem resetBlock_rxq (s : State) : (resetBlock s).rxq = [] := rfl
@[simp] theorem resetBlock_rxOverflow (s : State) : (resetBlock s).rxOverflow = false := rfl
@[simp] theorem resetBlock_mode (s : State) : (resetBlock s).mode = .none := rfl
@[simp] theorem resetBlock_expId (s : State) : (resetBlock s).expId = 0 := rfl
@[simp] theorem resetBlock_reqInstr (s : State) : (resetBlock s).reqInstr = 0 := rfl
@[simp] theorem resetBlock_totalLen (s : State) : (resetBlock s).totalLen = 0 := rfl
@[simp] theorem resetBlock_elapsed (s : State) : (resetBlock s).elapsed = 0 := rfl
@[simp] theorem resetBlock_settle (s : State) : (resetBlock s).settle = 0 := rfl
@[simp] theorem resetBlock_frameBuf (s : State) : (resetBlock s).frameBuf = [] := rfl
@[simp] theorem resetBlock_result (s : State) : (resetBlock s).result = Result.initial := rfl
@[simp] theorem resetBlock_done (s : State) : (resetBlock s).done = false := rfl
@[simp] theorem resetBlock_txh (s : State) : (resetBlock s).txh = [] := rfl
@[simp] theorem resetBlock_cfg (s : State) : (resetBlock s).cfg = s.cfg := rfl
@[simp] theorem resetBlock_moves (s : State) : (resetBlock s).moves = s.moves := rfl

end Sys2Proof.Machine
end

