-- ==== Sys2Proof/Laws/Ops.lean ====
section
/-! SUPPORT. What each shared operation can do, said once: acceptance, `Finish`, the tick, the producer's step. -/

namespace Sys2Proof.Machine

open Sys2Proof

@[simp] theorem ready_eq_true (s : State) : (ready s = true) ↔ s.st = .idle := by simp [ready]

/-- A busy block takes nothing (R160). -/
theorem accept_busy {check : Option Result} {run : State → State} {s : State} (h : s.st ≠ .idle) :
    accept check run s = s := by
  simp [accept, h]

/-- A command that passes its check runs its rule, `done` cleared (R160). -/
theorem accept_pass {run : State → State} {s : State} (h : s.st = .idle) :
    accept none run s = run (acknowledge s) := by
  simp [accept, h]

/-- A command that fails its check posts the failure and changes nothing else (R161). -/
theorem accept_fail {r : Result} {run : State → State} {s : State} (h : s.st = .idle) :
    accept (some r) run s = { s with result := r, done := true } := by
  simp [accept, h, post, acknowledge]

/-- Everything acceptance can do. -/
theorem accept_cases (check : Option Result) (run : State → State) (s : State) :
    (s.st ≠ .idle ∧ accept check run s = s) ∨
    (s.st = .idle ∧ ∃ r, check = some r ∧ accept check run s = { s with result := r, done := true }) ∨
    (s.st = .idle ∧ check = none ∧ accept check run s = run (acknowledge s)) := by
  by_cases h : s.st = .idle
  · cases check with
    | none => exact .inr (.inr ⟨h, rfl, accept_pass h⟩)
    | some r => exact .inr (.inl ⟨h, r, rfl, accept_fail h⟩)
  · exact .inl ⟨h, accept_busy h⟩

/-- `Finish` with a settle delay holds the result (R180). -/
theorem finish_settles {s : State} (h : 0 < settleTicks s.cfg s.mode s.reqInstr) :
    finish s = { s with settle := settleTicks s.cfg s.mode s.reqInstr, st := .settling } := by
  simp [finish, h]

/-- `Finish` without a delay posts at once (R180). -/
theorem finish_posts {s : State} (h : settleTicks s.cfg s.mode s.reqInstr = 0) :
    finish s = { s with settle := 0, st := .idle, done := true } := by
  simp [finish, h]

/-- Everything `Finish` can do. -/
theorem finish_cases (s : State) :
    (0 < settleTicks s.cfg s.mode s.reqInstr ∧
      finish s = { s with settle := settleTicks s.cfg s.mode s.reqInstr, st := .settling }) ∨
    (settleTicks s.cfg s.mode s.reqInstr = 0 ∧ finish s = { s with settle := 0, st := .idle, done := true }) := by
  rcases Nat.eq_zero_or_pos (settleTicks s.cfg s.mode s.reqInstr) with h | h
  · exact .inr ⟨h, finish_posts h⟩
  · exact .inl ⟨h, finish_settles h⟩

/-- `Finish` as one record, for either delay. -/
theorem finish_eq (s : State) :
    finish s = { s with
      settle := settleTicks s.cfg s.mode s.reqInstr
      st := if 0 < settleTicks s.cfg s.mode s.reqInstr then .settling else .idle
      done := if 0 < settleTicks s.cfg s.mode s.reqInstr then s.done else true } := by
  rcases finish_cases s with ⟨h, he⟩ | ⟨h, he⟩ <;> rw [he] <;> simp [h]

/-! What `Finish` leaves, field by field, and where it ends. -/

@[simp] theorem finish_connected (s : State) : (finish s).connected = s.connected := by rw [finish_eq]
@[simp] theorem finish_rxq (s : State) : (finish s).rxq = s.rxq := by rw [finish_eq]
@[simp] theorem finish_rxOverflow (s : State) : (finish s).rxOverflow = s.rxOverflow := by rw [finish_eq]
@[simp] theorem finish_elapsed (s : State) : (finish s).elapsed = s.elapsed := by rw [finish_eq]
@[simp] theorem finish_result (s : State) : (finish s).result = s.result := by rw [finish_eq]
@[simp] theorem finish_txh (s : State) : (finish s).txh = s.txh := by rw [finish_eq]
@[simp] theorem finish_cfg (s : State) : (finish s).cfg = s.cfg := by rw [finish_eq]
@[simp] theorem finish_moves (s : State) : (finish s).moves = s.moves := by rw [finish_eq]

theorem finish_st (s : State) : (finish s).st = .idle ∨ (finish s).st = .settling := by
  rcases finish_cases s with ⟨_, h⟩ | ⟨_, h⟩ <;> rw [h] <;> simp

theorem finish_done (s : State) :
    ((finish s).st = .settling ∧ (finish s).done = s.done) ∨ ((finish s).st = .idle ∧ (finish s).done = true) := by
  rcases finish_cases s with ⟨_, h⟩ | ⟨_, h⟩ <;> rw [h] <;> simp

/-- The settle delay is one of the two parameters, or none (R245). -/
theorem settleTicks_le (p : Params) (m : Mode) (code : Byte) :
    settleTicks p m code ≤ max p.settleWriteTicks p.settleResetTicks := by
  unfold settleTicks
  generalize (if m = .receive then SettleClass.none else settleClassOf p code) = c
  cases c <;> simp [classTicks]

/-- RECEIVE has no settle delay (R177). -/
@[simp] theorem settleTicks_receive (p : Params) (code : Byte) : settleTicks p .receive code = 0 := rfl

/-- Everything a tick can do (R141). -/
theorem tick_cases (s : State) :
    (s.st.awaiting = true ∧ tick s = { s with elapsed := min (s.elapsed + 1) s.cfg.timeoutTicks }) ∨
    (s.st = .settling ∧ 0 < s.settle ∧ tick s = { s with settle := s.settle - 1 }) ∨
    (s.st.awaiting = false ∧ (s.st = .settling → s.settle = 0) ∧ tick s = s) := by
  unfold tick
  split_ifs with h1 h2
  · exact .inl ⟨h1, rfl⟩
  · exact .inr (.inl ⟨h2.1, h2.2, rfl⟩)
  · refine .inr (.inr ⟨by simpa using h1, fun h => ?_, rfl⟩)
    by_contra hc
    exact h2 ⟨h, Nat.pos_of_ne_zero hc⟩

/-- There is room in the queue when it is unbounded or below its capacity (R55). -/
theorem rxqHasRoom_iff (s : State) :
    rxqHasRoom s = true ↔ ∀ cap, s.cfg.rxqCap = some cap → s.rxq.length < cap := by
  unfold rxqHasRoom
  cases h : s.cfg.rxqCap <;> simp

/-- Everything the producer's step can do (R55). -/
theorem rxPush_cases (b : Byte) (s : State) :
    (s.connected = false ∧ rxPush b s = s) ∨
    (s.connected = true ∧ rxqHasRoom s = true ∧ rxPush b s = { s with rxq := s.rxq ++ [b] }) ∨
    (s.connected = true ∧ rxqHasRoom s = false ∧ rxPush b s = { s with rxOverflow := true }) := by
  unfold rxPush
  split_ifs with h1 h2
  · exact .inr (.inl ⟨h1, h2, rfl⟩)
  · exact .inr (.inr ⟨h1, by simpa using h2, rfl⟩)
  · exact .inl ⟨by simpa using h1, rfl⟩

end Sys2Proof.Machine
end

