-- ==== Sys2Proof/Laws/PerInstr.lean ====
section
/-! SUPPORT. The statements made per instruction: OpcodeLookup, that the opcode table finds an instruction from its own code
and operands, and that its command is the one R79 names. -/

namespace Sys2Proof.Laws.OpcodeLookup

open Sys2Proof

/-- The table finds `i` from its code and operands, and the code belongs to the command that sends `i`. -/
def Statement (i : Instr) : Prop :=
  instrOf (opcode i) i.id i.params = some i ∧
  (i.sender = .send ↔ opcode i = 0x82 ∨ opcode i = 0x83)

theorem ping (id : Byte) (p : List Byte) : Statement (.ping id p) := ⟨instrOf_opcode _, by simp [Instr.sender, opcode]⟩
theorem read (id : Byte) (p : List Byte) : Statement (.read id p) := ⟨instrOf_opcode _, by simp [Instr.sender, opcode]⟩
theorem write (id : Byte) (p : List Byte) : Statement (.write id p) := ⟨instrOf_opcode _, by simp [Instr.sender, opcode]⟩
theorem regWrite (id : Byte) (p : List Byte) : Statement (.regWrite id p) := ⟨instrOf_opcode _, by simp [Instr.sender, opcode]⟩
theorem action (id : Byte) (p : List Byte) : Statement (.action id p) := ⟨instrOf_opcode _, by simp [Instr.sender, opcode]⟩
theorem factoryReset (id : Byte) (p : List Byte) : Statement (.factoryReset id p) :=
  ⟨instrOf_opcode _, by simp [Instr.sender, opcode]⟩
theorem reboot (id : Byte) (p : List Byte) : Statement (.reboot id p) := ⟨instrOf_opcode _, by simp [Instr.sender, opcode]⟩
theorem syncRead (id : Byte) (p : List Byte) : Statement (.syncRead id p) := ⟨instrOf_opcode _, by simp [Instr.sender, opcode]⟩
theorem syncWrite (id : Byte) (p : List Byte) : Statement (.syncWrite id p) := ⟨instrOf_opcode _, by simp [Instr.sender, opcode]⟩

end Sys2Proof.Laws.OpcodeLookup
end

