-- ==== Sys2Proof/Laws/Step.lean ====
section
/-! SUPPORT. What `exec`, a move and a step can do, said once: every outcome is a next state, and it is the state these
lemmas name. -/

namespace Sys2Proof.Machine

open Sys2Proof

/-- Every meaning is the offer of the command that sends the instruction (R79). -/
theorem exec_eq (i : Instr) (s : State) :
    exec i s = .next (match i.sender with
      | .transact => offerTransact i.id (opcode i) i.params s
      | .send => offerSend i.id (opcode i) i.params s) := by
  cases i <;> rfl

/-- A fetched TRANSACT carries the command's own operands. -/
theorem fetch_transact {id code : Byte} {p : List Byte} {i : Instr} (h : fetch (.transact id code p) = some i) :
    i.sender = .transact ∧ opcode i = code ∧ i.id = id ∧ i.params = p := by
  simp only [fetch, Option.filter_eq_some_iff, decide_eq_true_eq] at h
  exact ⟨h.2, instrOf_eq_some h.1⟩

/-- A fetched SEND carries the command's own operands. -/
theorem fetch_send {id code : Byte} {p : List Byte} {i : Instr} (h : fetch (.send id code p) = some i) :
    i.sender = .send ∧ opcode i = code ∧ i.id = id ∧ i.params = p := by
  simp only [fetch, Option.filter_eq_some_iff, decide_eq_true_eq] at h
  exact ⟨h.2, instrOf_eq_some h.1⟩

/-- Offering a command comes to its own acceptance rule, whether or not it sends a wire instruction. -/
theorem offerCommand_eq (c : HostCmd) (s : State) : offerCommand c s = .next (offerOther c s) := by
  unfold offerCommand
  split
  · rename_i i h
    cases c with
    | connect => cases h
    | disconnect => cases h
    | receive id => cases h
    | transact id code p =>
      obtain ⟨hs, rfl, rfl, rfl⟩ := fetch_transact h
      rw [exec_eq, hs]; rfl
    | send id code p =>
      obtain ⟨hs, rfl, rfl, rfl⟩ := fetch_send h
      rw [exec_eq, hs]; rfl
  · rfl

/-- The state a move leads to. -/
def afterMove (m : Move) (s : State) : State :=
  match m with
  | .command c => offerOther c s
  | .rx b => rxPush b s
  | .tick => tick s
  | .internal => internalMove s
  | .reset => resetBlock s

theorem runMove_eq (m : Move) (s : State) : runMove m s = .next (afterMove m s) := by
  cases m <;> first | exact offerCommand_eq _ _ | rfl

/-- The state a step leads to. -/
def afterStep (s : State) : State :=
  match s.moves with
  | [] => quietMove s
  | m :: rest => afterMove m { s with moves := rest }

theorem step_eq (s : State) : step s = .next (afterStep s) := by
  unfold step afterStep
  cases s.moves with
  | nil => rfl
  | cons m rest => exact runMove_eq _ _

theorem step_move {s : State} {m : Move} {rest : List Move} (h : s.moves = m :: rest) :
    step s = .next (afterMove m { s with moves := rest }) := by
  rw [step_eq]; simp [afterStep, h]

theorem step_quiet {s : State} (h : s.moves = []) : step s = .next (quietMove s) := by
  rw [step_eq]; simp [afterStep, h]

/-- Everything an offered command can do, by the rule that gives it; what a passed check says is in Laws/Operands. -/
theorem offerOther_cases (c : HostCmd) (s : State) :
    (s.st ≠ .idle ∧ c ≠ .disconnect ∧ offerOther c s = s) ∨
    (s.st = .idle ∧ ∃ r, offerOther c s = { s with result := r, done := true }) ∨
    (s.st = .idle ∧ c = .connect ∧
      offerOther c s = { s with connected := true, rxOverflow := false, result := .okay 0, done := true }) ∨
    (s.st = .idle ∧ c = .disconnect ∧
      offerOther c s = { s with connected := false, rxq := [], result := .okay 0, done := true }) ∨
    (s.st ≠ .idle ∧ c = .disconnect ∧
      offerOther c s = { s with connected := false, rxq := [], settle := 0, st := .failed, done := false }) ∨
    (∃ id code p, c = .transact id code p ∧ s.st = .idle ∧ checkTransact s.connected id code p = none ∧
      offerOther c s = { s with
        done := false, rxq := [], txh := s.txh ++ [.flush] ++ [.write (encodeFrame id code p)], mode := .transact,
        expId := id, reqInstr := code, elapsed := 0, st := .awaitHeader }) ∨
    (∃ id code p, c = .send id code p ∧ id = 0xFE ∧ s.st = .idle ∧ checkSend s.connected id code p = none ∧
      offerOther c s = finish { s with
        done := false, rxq := [], txh := s.txh ++ [.flush] ++ [.write (encodeFrame id code p)], mode := .send,
        reqInstr := code, result := .okay 0xFE }) ∨
    (∃ id, c = .receive id ∧ s.st = .idle ∧ checkReceive s.connected id = none ∧
      offerOther c s = { s with done := false, mode := .receive, expId := id, elapsed := 0, st := .awaitHeader }) := by
  cases c with
  | connect =>
    rcases accept_cases none runConnect s with ⟨h, he⟩ | ⟨_, _, h, _⟩ | ⟨h, _, he⟩
    · exact .inl ⟨h, by simp, he⟩
    · cases h
    · exact .inr (.inr (.inl ⟨h, rfl, he⟩))
  | disconnect =>
    by_cases h : s.st = .idle
    · exact .inr (.inr (.inr (.inl ⟨h, rfl, by simp [offerOther, offerDisconnect, ready, h, post, tearDown, acknowledge]⟩)))
    · exact .inr (.inr (.inr (.inr (.inl
        ⟨h, rfl, by simp [offerOther, offerDisconnect, ready, h, tearDown, acknowledge]⟩))))
  | transact id code p =>
    rcases accept_cases (checkTransact s.connected id code p) (runTransact id code p) s with
      ⟨h, he⟩ | ⟨h, r, _, he⟩ | ⟨h, hc, he⟩
    · exact .inl ⟨h, by simp, he⟩
    · exact .inr (.inl ⟨h, r, he⟩)
    · exact .inr (.inr (.inr (.inr (.inr (.inl ⟨id, code, p, rfl, h, hc, he⟩)))))
  | send id code p =>
    rcases accept_cases (checkSend s.connected id code p) (runSend code p) s with
      ⟨h, he⟩ | ⟨h, r, _, he⟩ | ⟨h, hc, he⟩
    · exact .inl ⟨h, by simp, he⟩
    · exact .inr (.inl ⟨h, r, he⟩)
    · obtain ⟨rfl, -, -, -⟩ := checkSend_pass hc
      exact .inr (.inr (.inr (.inr (.inr (.inr (.inl ⟨_, code, p, rfl, rfl, h, hc, he⟩))))))
  | receive id =>
    rcases accept_cases (checkReceive s.connected id) (runReceive id) s with ⟨h, he⟩ | ⟨h, r, _, he⟩ | ⟨h, hc, he⟩
    · exact .inl ⟨h, by simp, he⟩
    · exact .inr (.inl ⟨h, r, he⟩)
    · exact .inr (.inr (.inr (.inr (.inr (.inr (.inr ⟨id, rfl, h, hc, he⟩))))))

/-- The invariant does not speak of the environment's moves. -/
theorem inv_withMoves {s : State} (h : Inv s) (ms : List Move) : Inv { s with moves := ms } := by
  obtain ⟨a, b, c, d, e, f, g, i, j, k, l, m, n, o, p, q, r⟩ := h
  exact ⟨a, b, c, d, e, f, g, i, j, k, l, m, n, o, p, q, r⟩

@[simp] theorem runsTo_zero (s t : State) : runsTo 0 s t ↔ s = t := by
  constructor
  · intro h; injection h
  · rintro rfl; rfl

/-- A run is one step and then the rest of it. -/
theorem runsTo_succ (k : Nat) (s t : State) : runsTo (k + 1) s t ↔ runsTo k (afterStep s) t := by
  have h : Sys2Proof.core.step s = .next (afterStep s) := step_eq s
  simp only [runsTo, Host.Core.run, h]

/-- Runs compose. -/
theorem runsTo_add {j k : Nat} {s t u : State} (h1 : runsTo j s t) (h2 : runsTo k t u) : runsTo (j + k) s u := by
  induction j generalizing s with
  | zero => rw [runsTo_zero] at h1; subst h1; simpa using h2
  | succ n ih =>
    rw [runsTo_succ] at h1
    rw [show n + 1 + k = (n + k) + 1 by omega, runsTo_succ]
    exact ih h1

theorem internalStep_awaitHeader {s : State} (h : s.st = .awaitHeader) :
    internalStep s = awaitStep headerStep s := by simp [internalStep, h]

theorem internalStep_awaitLength {s : State} (h : s.st = .awaitLength) :
    internalStep s = awaitStep lengthStep s := by simp [internalStep, h]

theorem internalStep_awaitPayload {s : State} (h : s.st = .awaitPayload) :
    internalStep s = awaitStep payloadStep s := by simp [internalStep, h]

theorem internalStep_complete {s : State} (h : s.st = .complete) :
    internalStep s = some (finish { s with result := validate s.frameBuf s.expId }) := by
  simp only [internalStep, h]; rfl

theorem internalStep_timedOut {s : State} (h : s.st = .timedOut) :
    internalStep s = some (finish { s with
      rxq := [], txh := s.txh ++ [.flush], result := .failure .timeout s.expId .none }) := by
  simp only [internalStep, h]; rfl

theorem internalStep_failed {s : State} (h : s.st = .failed) : internalStep s = some (failedStep s) := by
  simp only [internalStep, h]

theorem internalStep_settling {s : State} (h : s.st = .settling) : internalStep s = settlingStep s := by
  simp only [internalStep, h]

theorem internalStep_idle {s : State} (h : s.st = .idle) : internalStep s = none := by
  simp only [internalStep, h]

/-- R131: past the deadline every awaiting state times out. -/
theorem awaitStep_late {f : State → Option State} {s : State} (h : s.cfg.timeoutTicks ≤ s.elapsed) :
    awaitStep f s = some { s with st := .timedOut } := by
  simp [awaitStep, deadlinePassed, h]

/-- Before the deadline an awaiting state makes its own progress. -/
theorem awaitStep_early {f : State → Option State} {s : State} (h : s.elapsed < s.cfg.timeoutTicks) :
    awaitStep f s = f s := by
  simp [awaitStep, deadlinePassed, Nat.not_le.mpr h]

theorem awaitStep_cases {f : State → Option State} {s t : State} (h : awaitStep f s = some t) :
    (s.cfg.timeoutTicks ≤ s.elapsed ∧ t = { s with st := .timedOut }) ∨
    (s.elapsed < s.cfg.timeoutTicks ∧ f s = some t) := by
  rcases Nat.lt_or_ge s.elapsed s.cfg.timeoutTicks with hl | hl
  · exact .inr ⟨hl, by rwa [awaitStep_early hl] at h⟩
  · rw [awaitStep_late hl] at h
    exact .inl ⟨hl, (Option.some.inj h).symm⟩

/-- The length byte is the fourth byte of the queue. -/
theorem byteAt_take_four (xs : List Byte) : byteAt (xs.take 4) 3 = byteAt xs 3 := by simp [byteAt]

theorem headerStep_cases {s t : State} (h : headerStep s = some t) :
    2 ≤ s.rxq.length ∧
    ((s.rxq.take 2 = [0xFF, 0xFF] ∧ t = { s with st := .awaitLength }) ∨
     (s.rxq.take 2 ≠ [0xFF, 0xFF] ∧ t = { s with rxq := s.rxq.drop 1 })) := by
  unfold headerStep at h
  split at h
  · rename_i hl
    split at h
    · rename_i hp
      exact ⟨hl, .inl ⟨hp, (Option.some.inj h).symm⟩⟩
    · rename_i hp
      exact ⟨hl, .inr ⟨hp, (Option.some.inj h).symm⟩⟩
  · cases h

theorem lengthStep_cases {s t : State} (h : lengthStep s = some t) :
    4 ≤ s.rxq.length ∧ t = { s with totalLen := totalLength (byteAt s.rxq 3), st := .awaitPayload } := by
  unfold lengthStep at h
  split at h
  · rename_i hl
    rw [rxPeek, byteAt_take_four] at h
    exact ⟨hl, (Option.some.inj h).symm⟩
  · cases h

theorem payloadStep_cases {s t : State} (h : payloadStep s = some t) :
    s.totalLen.toNat ≤ s.rxq.length ∧
    t = { s with rxq := s.rxq.drop s.totalLen.toNat, frameBuf := s.rxq.take s.totalLen.toNat, st := .complete } := by
  unfold payloadStep at h
  split at h
  · rename_i hl
    exact ⟨hl, (Option.some.inj h).symm⟩
  · cases h

theorem settlingStep_cases {s t : State} (h : settlingStep s = some t) :
    s.settle = 0 ∧ t = { s with st := .idle, done := true } := by
  unfold settlingStep at h
  split at h
  · rename_i hl
    exact ⟨hl, (Option.some.inj h).symm⟩
  · cases h

/-- Everything an internal step can do, by the rule that gives it. -/
theorem internalStep_cases {s t : State} (h : internalStep s = some t) :
    (s.st.awaiting = true ∧ s.cfg.timeoutTicks ≤ s.elapsed ∧ t = { s with st := .timedOut }) ∨
    (s.st = .awaitHeader ∧ s.elapsed < s.cfg.timeoutTicks ∧ 2 ≤ s.rxq.length ∧ s.rxq.take 2 = [0xFF, 0xFF] ∧
      t = { s with st := .awaitLength }) ∨
    (s.st = .awaitHeader ∧ s.elapsed < s.cfg.timeoutTicks ∧ 2 ≤ s.rxq.length ∧ s.rxq.take 2 ≠ [0xFF, 0xFF] ∧
      t = { s with rxq := s.rxq.drop 1 }) ∨
    (s.st = .awaitLength ∧ s.elapsed < s.cfg.timeoutTicks ∧ 4 ≤ s.rxq.length ∧
      t = { s with totalLen := totalLength (byteAt s.rxq 3), st := .awaitPayload }) ∨
    (s.st = .awaitPayload ∧ s.elapsed < s.cfg.timeoutTicks ∧ s.totalLen.toNat ≤ s.rxq.length ∧
      t = { s with rxq := s.rxq.drop s.totalLen.toNat, frameBuf := s.rxq.take s.totalLen.toNat, st := .complete }) ∨
    (s.st = .complete ∧ t = finish { s with result := validate s.frameBuf s.expId }) ∨
    (s.st = .timedOut ∧ t = finish { s with
      rxq := [], txh := s.txh ++ [.flush], result := .failure .timeout s.expId .none }) ∨
    (s.st = .failed ∧ t = failedStep s) ∨
    (s.st = .settling ∧ s.settle = 0 ∧ t = { s with st := .idle, done := true }) := by
  cases hst : s.st with
  | idle => rw [internalStep_idle hst] at h; cases h
  | awaitHeader =>
    rw [internalStep_awaitHeader hst] at h
    rcases awaitStep_cases h with ⟨hd, rfl⟩ | ⟨hd, hf⟩
    · exact .inl ⟨rfl, hd, rfl⟩
    · obtain ⟨hl, ⟨hp, rfl⟩ | ⟨hp, rfl⟩⟩ := headerStep_cases hf
      · exact .inr (.inl ⟨rfl, hd, hl, hp, rfl⟩)
      · exact .inr (.inr (.inl ⟨rfl, hd, hl, hp, by rw [hst]⟩))
  | awaitLength =>
    rw [internalStep_awaitLength hst] at h
    rcases awaitStep_cases h with ⟨hd, rfl⟩ | ⟨hd, hf⟩
    · exact .inl ⟨rfl, hd, rfl⟩
    · obtain ⟨hl, rfl⟩ := lengthStep_cases hf
      exact .inr (.inr (.inr (.inl ⟨rfl, hd, hl, rfl⟩)))
  | awaitPayload =>
    rw [internalStep_awaitPayload hst] at h
    rcases awaitStep_cases h with ⟨hd, rfl⟩ | ⟨hd, hf⟩
    · exact .inl ⟨rfl, hd, rfl⟩
    · obtain ⟨hl, rfl⟩ := payloadStep_cases hf
      exact .inr (.inr (.inr (.inr (.inl ⟨rfl, hd, hl, rfl⟩))))
  | complete =>
    rw [internalStep_complete hst] at h
    exact .inr (.inr (.inr (.inr (.inr (.inl ⟨rfl, by rw [← Option.some.inj h, hst]⟩)))))
  | timedOut =>
    rw [internalStep_timedOut hst] at h
    exact .inr (.inr (.inr (.inr (.inr (.inr (.inl ⟨rfl, by rw [← Option.some.inj h, hst]⟩))))))
  | failed =>
    rw [internalStep_failed hst] at h
    exact .inr (.inr (.inr (.inr (.inr (.inr (.inr (.inl ⟨rfl, (Option.some.inj h).symm⟩)))))))
  | settling =>
    rw [internalStep_settling hst] at h
    obtain ⟨hz, rfl⟩ := settlingStep_cases h
    exact .inr (.inr (.inr (.inr (.inr (.inr (.inr (.inr ⟨rfl, hz, rfl⟩)))))))

/-- An awaiting step reads none of the environment's moves, if its own progress does not. -/
theorem awaitStep_moves {f : State → Option State} {s : State} {ms : List Move}
    (h : f { s with moves := ms } = (f s).map fun t => { t with moves := ms }) :
    awaitStep f { s with moves := ms } = (awaitStep f s).map fun t => { t with moves := ms } := by
  rcases Nat.lt_or_ge s.elapsed s.cfg.timeoutTicks with hl | hl
  · rw [awaitStep_early (s := s) hl, awaitStep_early (by exact hl), h]
  · rw [awaitStep_late (s := s) hl, awaitStep_late (by exact hl)]; rfl

/-- An internal step neither reads nor writes the environment's moves. -/
theorem internalStep_moves (s : State) (ms : List Move) :
    internalStep { s with moves := ms } = (internalStep s).map fun t => { t with moves := ms } := by
  obtain ⟨ph, hs⟩ : ∃ ph, s.st = ph := ⟨_, rfl⟩
  cases ph with
  | idle => rw [internalStep_idle hs, internalStep_idle (by exact hs)]; rfl
  | awaitHeader =>
    rw [internalStep_awaitHeader hs, internalStep_awaitHeader (by exact hs)]
    refine awaitStep_moves ?_
    simp only [headerStep, rxPeek, rxDiscard]
    split_ifs <;> simp [*]
  | awaitLength =>
    rw [internalStep_awaitLength hs, internalStep_awaitLength (by exact hs)]
    refine awaitStep_moves ?_
    simp only [lengthStep, rxPeek]
    split_ifs <;> rfl
  | awaitPayload =>
    rw [internalStep_awaitPayload hs, internalStep_awaitPayload (by exact hs)]
    refine awaitStep_moves ?_
    simp only [payloadStep, rxPeek, rxDrop]
    split_ifs <;> rfl
  | complete =>
    rw [internalStep_complete hs, internalStep_complete (by exact hs), finish_eq, finish_eq]; rfl
  | timedOut =>
    rw [internalStep_timedOut hs, internalStep_timedOut (by exact hs), finish_eq, finish_eq]; rfl
  | failed => rw [internalStep_failed hs, internalStep_failed (by exact hs)]; rfl
  | settling =>
    rw [internalStep_settling hs, internalStep_settling (by exact hs)]
    simp only [settlingStep]
    split_ifs <;> rfl

theorem internalMove_moves (s : State) (ms : List Move) :
    internalMove { s with moves := ms } = { internalMove s with moves := ms } := by
  rw [internalMove, internalStep_moves, internalMove]
  cases internalStep s <;> rfl

end Sys2Proof.Machine
end

