-- ==== Sys2Proof/Tests/Slice0.lean ====
section
/-! SUPPORT. Tests: the smoke test of WellFormed, words written out from the spec's encodings, one-step tests with results
from 95_test_vectors.md, and a witness for the hypotheses of every obligation that has some. -/

namespace Sys2Proof.Tests

open Sys2Proof Sys2Proof.Machine

/-! The configuration and the start state of 95_test_vectors.md's L2 vectors. -/

def testCfg : Params :=
  { timeoutTicks := 3, settleWriteTicks := 2, settleResetTicks := 5, settleClass := Config.defaultSettleClass,
    rxqCap := none, tickPeriod := 1000, maxRetry := 0, regByteOrder := .little }

/-- "Start: connected": the state after reset followed by CONNECT. -/
def connected : State :=
  { State.reset with connected := true, done := true, result := .okay 0, cfg := testCfg }

/-- A RECEIVE from id 5 in progress, with the queue given. -/
def receiving (st : Phase) (q : List Byte) : State :=
  { connected with st := st, mode := .receive, expId := 5, rxq := q, done := false }

/-- The same with a TRANSACT of the code given in progress. -/
def transacting (st : Phase) (code : Byte) (q : List Byte) : State :=
  { receiving st q with mode := .transact, reqInstr := code }

/-- The next state of an outcome. -/
def nextState (o : Host.Outcome State Fault Refusal) : Option State :=
  match o with
  | .next s => some s
  | .fault _ => none
  | .refused _ => none

/-- A step under one move, looked at through `f`. -/
def after {α : Type} (s : State) (m : Move) (f : State → α) : Option α := (nextState (step { s with moves := [m] })).map f

/-! WellFormed: one ill-formed term per check, refused. -/

theorem test_unicast_target_254_is_illFormed : (Instr.ping 0xFE []).wellFormed = false := by decide
theorem test_unicast_target_255_is_illFormed : (Instr.reboot 0xFF []).wellFormed = false := by decide
theorem test_group_target_253_is_illFormed : (Instr.syncWrite 0xFD [0x2A, 0x02]).wellFormed = false := by decide
theorem test_group_target_255_is_illFormed : (Instr.syncRead 0xFF []).wellFormed = false := by decide
set_option maxRecDepth 10000 in
theorem test_254_params_are_illFormed : (Instr.write 0x01 (List.replicate 254 0)).wellFormed = false := by decide
set_option maxRecDepth 10000 in
theorem test_wellFormed_boundary :
    (Instr.write 0xFD (List.replicate 253 0)).wellFormed = true ∧ (Instr.syncRead 0xFE []).wellFormed = true := by decide

/-! Decoding: the request of every code as L2-W writes it out; one word per rejection. -/

theorem test_decode_ping : decode [0xFF, 0xFF, 0x01, 0x02, 0x01, 0xFB] = .ok (.ping 0x01 []) := by decide
theorem test_decode_read :
    decode [0xFF, 0xFF, 0x07, 0x04, 0x02, 0x38, 0x02, 0xB8] = .ok (.read 0x07 [0x38, 0x02]) := by decide
theorem test_decode_write :
    decode [0xFF, 0xFF, 0x01, 0x04, 0x03, 0x28, 0x01, 0xCE] = .ok (.write 0x01 [0x28, 0x01]) := by decide
theorem test_decode_regWrite :
    decode [0xFF, 0xFF, 0x01, 0x05, 0x04, 0x2A, 0x00, 0x08, 0xC3] = .ok (.regWrite 0x01 [0x2A, 0x00, 0x08]) := by decide
theorem test_decode_action : decode [0xFF, 0xFF, 0x01, 0x02, 0x05, 0xF7] = .ok (.action 0x01 []) := by decide
theorem test_decode_factoryReset : decode [0xFF, 0xFF, 0x01, 0x02, 0x06, 0xF6] = .ok (.factoryReset 0x01 []) := by decide
theorem test_decode_reboot : decode [0xFF, 0xFF, 0x01, 0x02, 0x08, 0xF4] = .ok (.reboot 0x01 []) := by decide
theorem test_decode_syncRead :
    decode [0xFF, 0xFF, 0xFE, 0x07, 0x82, 0x38, 0x02, 0x01, 0x02, 0x03, 0x38] =
      .ok (.syncRead 0xFE [0x38, 0x02, 0x01, 0x02, 0x03]) := by decide
theorem test_decode_syncWrite :
    decode [0xFF, 0xFF, 0xFE, 0x0D, 0x83, 0x2A, 0x02, 0x01, 0x00, 0x08, 0x02, 0x00, 0x10, 0x03, 0x00, 0x18, 0x0F] =
      .ok (.syncWrite 0xFE [0x2A, 0x02, 0x01, 0x00, 0x08, 0x02, 0x00, 0x10, 0x03, 0x00, 0x18]) := by decide

/-- L2-C3's rejected frames, the first unassigned code R80 lists, and ids R51 does not let the instruction target. -/
theorem test_decode_rejects_by_name :
    decode [0xFF, 0xFF, 0x05, 0x02, 0x00] = .error .short ∧
    decode [0xFE, 0xFF, 0x05, 0x02, 0x00, 0xF8] = .error .header ∧
    decode [0xFF, 0xFF, 0x05, 0x02, 0x00, 0xF8, 0x00] = .error .length ∧
    decode [0xFF, 0xFF, 0x05, 0x02, 0x00, 0xF9] = .error .checksum ∧
    decode [0xFF, 0xFF, 0x01, 0x02, 0x07, 0xF5] = .error (.unassigned 0x07) ∧
    decode [0xFF, 0xFF, 0xFE, 0x02, 0x01, 0xFE] = .error (.illegalId 0xFE) ∧
    decode [0xFF, 0xFF, 0x01, 0x02, 0x83, 0x79] = .error (.illegalId 0x01) := by decide

theorem test_decodeTableWord :
    [0x01, 0x02, 0x03, 0x04, 0x05, 0x06, 0x08, 0x82, 0x83].map (decodeTableWord 8) =
      [some (.ping 0 []), some (.read 0 []), some (.write 0 []), some (.regWrite 0 []), some (.action 0 []),
       some (.factoryReset 0 []), some (.reboot 0 []), some (.syncRead 0xFE []), some (.syncWrite 0xFE [])] ∧
    decodeTableWord 8 0x07 = none ∧ decodeTableWord 8 0x81 = none := by decide

/-- `withFetchWord` makes the very next step run the row's instruction; after reset the transport is closed (T2). -/
theorem test_withFetchWord :
    (nextState (step (State.reset.withFetchWord 8 0x08))).map (fun s => (s.result, s.txh)) =
      some ({ kind := .connectionLost, id := 0, reason := .none, errbits := 0, frame := none }, []) := by decide

/-! The codec: L2-C1, L2-C2, L1-2, L1-4, L2-C3 and L2-C4. -/

theorem test_checksum :
    checksum [0x05, 0x02, 0x01] = 0xF7 ∧ checksum [0xFD, 0x02, 0x01] = 0xFF ∧ checksum [0xFC, 0x02, 0x01] = 0x00 ∧
    checksum [0xFE, 0x0D, 0x83, 0x2A, 0x02, 0x01, 0x00, 0x08, 0x02, 0x00, 0x10, 0x03, 0x00, 0x18] = 0x0F := by decide

theorem test_encode :
    encode (.write 0x01 [0x2A, 0x00, 0x08]) = [0xFF, 0xFF, 0x01, 0x05, 0x03, 0x2A, 0x00, 0x08, 0xC4] ∧
    encode (.ping 0xFC []) = [0xFF, 0xFF, 0xFC, 0x02, 0x01, 0x00] := by decide

theorem test_decodeFrame :
    decodeFrame [0xFF, 0xFF, 0x01, 0x04, 0x00, 0xE8, 0x03, 0x0F] =
      .frame { id := 1, length := 4, err := 0, params := [0xE8, 0x03], checksum := 0x0F } ∧
    decodeFrame [0xFF, 0xFF, 0x01, 0x05, 0x00, 0xE8, 0x03, 0x0F] = .invalidResponse .length ∧
    decodeFrame [0xFF, 0xFF, 0x00, 0x04, 0x00, 0xE8, 0x03, 0x0F] = .checksumError 0 ∧
    decodeFrame [0xFF, 0xFF, 0xFE, 0x02, 0x01, 0xFE] =
      .frame { id := 0xFE, length := 2, err := 1, params := [], checksum := 0xFE } := by decide

theorem test_conditions :
    conditions 0x24 = [.overheat, .overload] ∧ conditions 0x80 = [.unnamedBit7] ∧
    conditions 0x7F = [.voltage, .angle, .overheat, .range, .checksum, .overload, .instruction] := by decide

/-! One step per instruction, from "Start: connected": L2-W's request bytes, and where the block goes. -/

theorem test_exec_ping :
    (nextState (exec (.ping 0x01 []) connected)).map (fun s => (s.st, s.expId, s.txh)) =
      some (.awaitHeader, 0x01, [.flush, .write [0xFF, 0xFF, 0x01, 0x02, 0x01, 0xFB]]) := by decide
theorem test_exec_read :
    (nextState (exec (.read 0x07 [0x38, 0x02]) connected)).map (fun s => (s.st, s.txh)) =
      some (.awaitHeader, [.flush, .write [0xFF, 0xFF, 0x07, 0x04, 0x02, 0x38, 0x02, 0xB8]]) := by decide
theorem test_exec_write :
    (nextState (exec (.write 0x01 [0x28, 0x01]) connected)).map (fun s => (s.st, s.txh)) =
      some (.awaitHeader, [.flush, .write [0xFF, 0xFF, 0x01, 0x04, 0x03, 0x28, 0x01, 0xCE]]) := by decide
theorem test_exec_regWrite :
    (nextState (exec (.regWrite 0x01 [0x2A, 0x00, 0x08]) connected)).map (fun s => (s.st, s.txh)) =
      some (.awaitHeader, [.flush, .write [0xFF, 0xFF, 0x01, 0x05, 0x04, 0x2A, 0x00, 0x08, 0xC3]]) := by decide
theorem test_exec_action :
    (nextState (exec (.action 0x01 []) connected)).map (fun s => (s.st, s.txh)) =
      some (.awaitHeader, [.flush, .write [0xFF, 0xFF, 0x01, 0x02, 0x05, 0xF7]]) := by decide
theorem test_exec_factoryReset :
    (nextState (exec (.factoryReset 0x01 []) connected)).map (fun s => (s.st, s.txh)) =
      some (.awaitHeader, [.flush, .write [0xFF, 0xFF, 0x01, 0x02, 0x06, 0xF6]]) := by decide
theorem test_exec_reboot :
    (nextState (exec (.reboot 0x01 []) connected)).map (fun s => (s.st, s.txh)) =
      some (.awaitHeader, [.flush, .write [0xFF, 0xFF, 0x01, 0x02, 0x08, 0xF4]]) := by decide
/-- T27: no settle. -/
theorem test_exec_syncRead :
    (nextState (exec (.syncRead 0xFE [0x38, 0x02, 0x01, 0x02, 0x03]) connected)).map
        (fun s => (s.st, s.done, s.result, s.txh)) =
      some (.idle, true, { kind := .ok, id := 0xFE, reason := .none, errbits := 0, frame := none },
        [.flush, .write [0xFF, 0xFF, 0xFE, 0x07, 0x82, 0x38, 0x02, 0x01, 0x02, 0x03, 0x38]]) := by decide
/-- T28 and L1-7: one write, and the result held for 2 ticks. -/
theorem test_exec_syncWrite :
    (nextState (exec (.syncWrite 0xFE [0x2A, 0x02, 0x01, 0x00, 0x08, 0x02, 0x00, 0x10, 0x03, 0x00, 0x18]) connected)).map
        (fun s => (s.st, s.settle, s.done, s.txh)) =
      some (.settling, 2, false, [.flush, .write
        [0xFF, 0xFF, 0xFE, 0x0D, 0x83, 0x2A, 0x02, 0x01, 0x00, 0x08, 0x02, 0x00, 0x10, 0x03, 0x00, 0x18, 0x0F]]) := by decide

/-! Acceptance: the T vectors of one step. -/

/-- T1. -/
theorem test_connect :
    after State.reset (.command .connect) (fun s => (s.connected, s.result.kind, s.result.id, s.done)) =
      some (true, .ok, 0, true) := by decide
/-- T3 and T4: the operand checks come first, and the first that fails decides. -/
theorem test_bad_id_comes_first :
    after State.reset (.command (.transact 0xFE 0x01 [])) (fun s => (s.result.kind, s.result.id, s.result.reason)) =
      some (.invalidParameter, 0xFE, .badId) ∧
    after State.reset (.command (.transact 0xFF 0x07 (List.replicate 254 0))) (fun s => (s.result.id, s.result.reason)) =
      some (0xFF, .badId) := by decide
/-- T5, T6, T9, T10 and T11. -/
theorem test_refused_operands :
    after connected (.command (.transact 0x01 0x83 [])) (fun s => s.result.reason) = some .badInstr ∧
    after connected (.command (.transact 0x01 0x07 [])) (fun s => s.result.reason) = some .badInstr ∧
    after connected (.command (.send 0x01 0x83 [])) (fun s => s.result.reason) = some .badId ∧
    after connected (.command (.send 0xFE 0x01 [])) (fun s => s.result.reason) = some .badInstr ∧
    after connected (.command (.receive 0xFE)) (fun s => s.result.reason) = some .badId := by decide
set_option maxRecDepth 10000 in
/-- T7. -/
theorem test_too_many_params :
    after connected (.command (.transact 0x01 0x03 (List.replicate 254 0))) (fun s => (s.result.reason, s.txh, s.st)) =
      some (.tooManyParams, [], .idle) := by decide
/-- T12: the old bytes are flushed. -/
theorem test_transact_flushes :
    after { connected with rxq := [0xAA, 0xBB, 0xFF, 0xFF, 0x01, 0x02, 0x00, 0xFC] } (.command (.transact 0x01 0x01 []))
        (fun s => (s.rxq, s.st, s.done)) = some ([], .awaitHeader, false) := by decide
/-- T26: RECEIVE keeps them. -/
theorem test_receive_keeps_the_queue :
    after { connected with rxq := [0xFF, 0xFF, 0x01, 0x02, 0x00, 0xFC] } (.command (.receive 0x01))
        (fun s => (s.rxq, s.st, s.txh)) = some ([0xFF, 0xFF, 0x01, 0x02, 0x00, 0xFC], .awaitHeader, []) := by decide
/-- T24. -/
theorem test_disconnect_idle :
    after { connected with rxq := [0x01, 0x02] } (.command .disconnect)
        (fun s => (s.connected, s.rxq, s.result.kind, s.result.id)) = some (false, [], .ok, 0) := by decide
/-- T22 and T23's first step. -/
theorem test_disconnect_busy :
    after (receiving .awaitPayload [0xFF, 0xFF, 0x05, 0x02]) (.command .disconnect)
        (fun s => (s.st, s.connected, s.rxq, s.done)) = some (.failed, false, [], false) ∧
    after { transacting .settling 0x03 [] with settle := 2 } (.command .disconnect) (fun s => (s.st, s.settle)) =
      some (.failed, 0) := by decide
/-- T33. -/
theorem test_busy_takes_nothing :
    after (receiving .awaitHeader []) (.command (.transact 0x02 0x01 [])) (fun s => (s.st, s.expId, s.txh)) =
      some (.awaitHeader, 5, []) := by decide
/-- T32: a full queue drops the byte. -/
theorem test_overflow :
    after { connected with rxq := [1, 2, 3, 4], cfg := { testCfg with rxqCap := some 4 } } (.rx 5)
        (fun s => (s.rxq, s.rxOverflow)) = some ([1, 2, 3, 4], true) := by decide

/-! Internal steps and ticks: the S and T vectors, one step each. -/

/-- S2, S3 and S9: a header, a byte discarded, and a lone byte kept. -/
theorem test_header_search :
    after (receiving .awaitHeader [0xFF, 0xFF, 0x05]) .internal (fun s => (s.st, s.rxq)) =
      some (.awaitLength, [0xFF, 0xFF, 0x05]) ∧
    after (receiving .awaitHeader [0xFF, 0x34, 0xFF]) .internal (fun s => (s.st, s.rxq)) =
      some (.awaitHeader, [0x34, 0xFF]) ∧
    after (receiving .awaitHeader [0x00]) .internal (fun s => (s.st, s.rxq)) = some (.awaitHeader, [0x00]) := by decide
/-- S4 and S14: the total length, up to 259. -/
theorem test_length :
    after (receiving .awaitLength [0xFF, 0xFF, 0xFF, 0x05]) .internal (fun s => (s.st, s.totalLen)) =
      some (.awaitPayload, 9) ∧
    after (receiving .awaitLength [0xFF, 0xFF, 0x05, 0xFF]) .internal (fun s => s.totalLen) = some 259 := by decide
/-- S10: exactly `total_len` bytes are taken. -/
theorem test_payload :
    after { receiving .awaitPayload [0xFF, 0xFF, 0x05, 0x02, 0x00, 0xF8, 0xFF, 0xFF, 0x05] with totalLen := 6 } .internal
        (fun s => (s.st, s.frameBuf, s.rxq)) =
      some (.complete, [0xFF, 0xFF, 0x05, 0x02, 0x00, 0xF8], [0xFF, 0xFF, 0x05]) := by decide
/-- S8: the deadline comes before progress. -/
theorem test_deadline_first :
    after { receiving .awaitHeader [0xFF, 0xFF, 0x05, 0x02, 0x00, 0xF8] with elapsed := 3 } .internal (fun s => s.st) =
      some .timedOut := by decide
/-- S7 and T19: a timeout flushes; after a WRITE it settles. -/
theorem test_timeout :
    after { receiving .timedOut [0xFF, 0xFF, 0x05] with elapsed := 3 } .internal
        (fun s => (s.st, s.rxq, s.result, s.done)) =
      some (.idle, [], { kind := .timeout, id := 5, reason := .none, errbits := 0, frame := none }, true) ∧
    after { transacting .timedOut 0x03 [] with elapsed := 3 } .internal (fun s => (s.st, s.settle, s.done)) =
      some (.settling, 2, false) := by decide
/-- T13 to T17: what a complete frame is judged to be. -/
theorem test_validate :
    validate [0xFF, 0xFF, 0x06, 0x02, 0x00, 0xF7] 5 =
      { kind := .invalidResponse, id := 5, reason := .idMismatch, errbits := 0, frame := none } ∧
    validate [0xFF, 0xFF, 0x05, 0x02, 0x24, 0xD4] 5 =
      { kind := .hardwareError, id := 5, reason := .none, errbits := 0x24, frame := none } ∧
    validate [0xFF, 0xFF, 0x05, 0x02, 0x80, 0x78] 5 =
      { kind := .hardwareError, id := 5, reason := .none, errbits := 0x80, frame := none } ∧
    validate [0xFF, 0xFF, 0x05, 0x02, 0x00, 0xF9] 5 =
      { kind := .checksumError, id := 5, reason := .none, errbits := 0, frame := none } ∧
    validate [0xFF, 0xFF, 0x07, 0x02, 0x00, 0xF0] 5 =
      { kind := .checksumError, id := 7, reason := .none, errbits := 0, frame := none } := by decide
/-- T20: the settle of FACTORY_RESET. -/
theorem test_complete_settles :
    after { transacting .complete 0x06 [] with expId := 1, frameBuf := [0xFF, 0xFF, 0x01, 0x02, 0x00, 0xFC] } .internal
        (fun s => (s.st, s.settle, s.done, s.result.kind)) = some (.settling, 5, false, .ok) := by decide
/-- T18 and T20: ticks of the settle delay, and its end. -/
theorem test_settling :
    after { transacting .settling 0x03 [] with settle := 2 } .tick (fun s => s.settle) = some 1 ∧
    after { transacting .settling 0x03 [] with settle := 1 } .internal (fun s => (s.st, s.done)) =
      some (.settling, false) ∧
    after (transacting .settling 0x03 []) .internal (fun s => (s.st, s.done)) = some (.idle, true) := by decide
/-- T22's last step. -/
theorem test_failed :
    after { receiving .failed [] with connected := false } .internal (fun s => (s.st, s.result.kind, s.result.id, s.done)) =
      some (.idle, .connectionLost, 5, true) := by decide
/-- L1-6: ticks count up to the deadline and stop there (R141). -/
theorem test_ticks :
    after { receiving .awaitHeader [] with elapsed := 2 } .tick (fun s => s.elapsed) = some 3 ∧
    after { receiving .awaitHeader [] with elapsed := 3 } .tick (fun s => s.elapsed) = some 3 ∧
    after connected .tick (fun s => s.elapsed) = some 0 := by decide
/-- T34. -/
theorem test_reset :
    after (transacting .awaitPayload 0x03 [0xFF, 0xFF]) .reset (fun s => (s.st, s.connected, s.rxq, s.result.kind, s.done)) =
      some (.idle, false, [], .none, false) := by decide

/-- L1-7, and R141's rounding. -/
theorem test_host_operations :
    groupWrite 0x2A 2 [(1, [0x00, 0x08]), (2, [0x00, 0x10]), (3, [0x00, 0x18])] =
      some (.send 0xFE 0x83 [0x2A, 0x02, 0x01, 0x00, 0x08, 0x02, 0x00, 0x10, 0x03, 0x00, 0x18]) ∧
    groupWrite 0x2A 2 [] = none ∧ ticksOf 2500 1000 = 3 ∧ ticksOf 3000 1000 = 3 := by decide

/-- R91 and R90: the last rate's value is written, and every value `setBaudRate` takes selects a rate. -/
theorem test_set_baud_rate :
    setBaudRateOp 0x01 0x06 7 = .transact 0x01 0x03 [0x06, 0x07] ∧ baudRate 0x07 = some 19200 ∧ baudRate 0x08 = none ∧
    ∀ k : Fin 8, (baudRate (BitVec.ofNat 8 k.val)).isSome = true := by decide

/-! Witnesses: for every obligation with hypotheses, a state and operands that meet them together; for one with several
clauses, each clause, at the ends of its range. -/

set_option maxRecDepth 10000 in
theorem witness_EncodeBuildsTheFrame :
    (List.replicate 253 (0 : Byte)).length ≤ 253 ∧ ([] : List Byte).length ≤ 253 := by decide

/-- The five clauses; the first has length 5, every other at least 6. -/
theorem witness_DecodeChecksInOrder :
    [0xFF, 0xFF, 0x05, 0x02, (0x00 : Byte)].length < 6 ∧
    (let b : List Byte := [0xFF, 0xFE, 0x05, 0x02, 0x00, 0xF8]
     6 ≤ b.length ∧ (byteAt b 0 ≠ 0xFF ∨ byteAt b 1 ≠ 0xFF)) ∧
    (let b : List Byte := [0xFF, 0xFF, 0x05, 0x03, 0x00, 0xF8]
     6 ≤ b.length ∧ byteAt b 0 = 0xFF ∧ byteAt b 1 = 0xFF ∧ b.length ≠ (byteAt b 3).toNat + 4) ∧
    (let b : List Byte := [0xFF, 0xFF, 0x05, 0x02, 0x00, 0xF9]
     6 ≤ b.length ∧ byteAt b 0 = 0xFF ∧ byteAt b 1 = 0xFF ∧ b.length = (byteAt b 3).toNat + 4 ∧
       byteAt b (b.length - 1) ≠ checksum (slice b 2 (b.length - 2))) ∧
    (let b : List Byte := [0xFF, 0xFF, 0x05, 0x02, 0x00, 0xF8]
     6 ≤ b.length ∧ byteAt b 0 = 0xFF ∧ byteAt b 1 = 0xFF ∧ b.length = (byteAt b 3).toNat + 4 ∧
       byteAt b (b.length - 1) = checksum (slice b 2 (b.length - 2))) := by decide

/-- Every index of the reply of L1-4, which takes in each branch and both ends. -/
theorem witness_SingleByteChangeIsDetected :
    [0xE8, (0x03 : Byte)].length ≤ 253 ∧
    ∀ i ∈ [0, 1, 2, 3, 4, 6, 7],
      i < (encodeFrame 0x01 0x00 [0xE8, 0x03]).length ∧
      byteAt (encodeFrame 0x01 0x00 [0xE8, 0x03]) i ^^^ 1 ≠ byteAt (encodeFrame 0x01 0x00 [0xE8, 0x03]) i := by decide

theorem witness_ErrorByteNamesEverySetBit : (0x01 : Byte) ≠ 0 ∧ (0xFF : Byte) ≠ 0 := by decide

set_option maxRecDepth 10000 in
theorem witness_DecodeInvertsEncode :
    (Instr.write 0xFD (List.replicate 253 0xAA)).wellFormed = true ∧ (Instr.ping 0x00 []).wellFormed = true ∧
    (Instr.syncWrite 0xFE [0x2A, 0x02]).wellFormed = true := by decide

theorem witness_DecodedRequestsAreEncodings :
    decode [0xFF, 0xFF, 0xFD, 0x02, 0x01, 0xFF] = .ok (.ping 0xFD []) := by decide

theorem witness_OnlyNineCodesNameInstructions : instrOf 0x83 0xFE [0x2A] = some (.syncWrite 0xFE [0x2A]) := by decide

theorem witness_StepRunsTheDecodedInstruction :
    decode [0xFF, 0xFF, 0x05, 0x02, 0x01, 0xF7] = .ok (.ping 0x05 []) ∧
    ({ connected with moves := [.command (requestCommand [0xFF, 0xFF, 0x05, 0x02, 0x01, 0xF7]), .tick] } : State).moves =
      .command (requestCommand [0xFF, 0xFF, 0x05, 0x02, 0x01, 0xF7]) :: [.tick] := by decide

set_option maxRecDepth 10000 in
theorem witness_UnicastInstructionsTransmitAndAwait :
    connected.st = .idle ∧ connected.connected = true ∧ (0xFD : Byte).toNat ≤ 253 ∧
    (List.replicate 253 (0 : Byte)).length ≤ 253 := by decide

theorem witness_RegWriteAndActionTransmitAndAwait :
    connected.st = .idle ∧ connected.connected = true ∧ (0x00 : Byte).toNat ≤ 253 ∧ [(0x2A : Byte)].length ≤ 253 := by decide

theorem witness_SyncReadTransmitsAndPosts :
    connected.st = .idle ∧ connected.connected = true ∧ [0x38, 0x02, (0x01 : Byte)].length ≤ 253 ∧
    connected.cfg.settleClass = Config.defaultSettleClass := by decide

theorem witness_SyncWriteTransmitsAndSettles :
    connected.st = .idle ∧ connected.connected = true ∧ [0x2A, 0x01, 0x01, (0x00 : Byte)].length ≤ 253 ∧
    connected.cfg.settleClass = Config.defaultSettleClass := by decide

set_option maxRecDepth 10000 in
theorem witness_RefusedInstructionsPostAndSendNothing :
    connected.st = .idle ∧ (Instr.ping 0xFE []).idOk = false ∧ (Instr.syncWrite 0xFD []).idOk = false ∧
    ((Instr.write 0xFD (List.replicate 254 0)).idOk = true ∧
      253 < (Instr.write 0xFD (List.replicate 254 0)).params.length) ∧
    (State.reset.st = .idle ∧ (Instr.ping 0xFD []).wellFormed = true ∧ State.reset.connected = false) := by decide

set_option maxRecDepth 10000 in
/-- TRANSACT: 254 against 253, a code outside the seven, 254 parameters, closed, open. -/
theorem witness_AcceptanceChecksRunInOrder_transact :
    connected.st = .idle ∧ connected.connected = true ∧ State.reset.st = .idle ∧ State.reset.connected = false ∧
    253 < (0xFE : Byte).toNat ∧ (0xFD : Byte).toNat ≤ 253 ∧
    (0x07 : Byte) ∉ ([0x01, 0x02, 0x03, 0x04, 0x05, 0x06, 0x08] : List Byte) ∧
    (0x08 : Byte) ∈ ([0x01, 0x02, 0x03, 0x04, 0x05, 0x06, 0x08] : List Byte) ∧
    253 < (List.replicate 254 (0 : Byte)).length ∧ (List.replicate 253 (0 : Byte)).length ≤ 253 ∧
    ({ connected with moves := [.command (.transact 0xFD 0x08 [])] } : State).moves =
      .command (.transact 0xFD 0x08 []) :: [] := by decide

/-- SEND: 253 against 254, a code outside the two; the parameter counts and the two start states are TRANSACT's. -/
theorem witness_AcceptanceChecksRunInOrder_send :
    (0xFD : Byte) ≠ 0xFE ∧ (0xFE : Byte) = 0xFE ∧ (0x81 : Byte) ∉ ([0x82, 0x83] : List Byte) ∧
    (0x82 : Byte) ∈ ([0x82, 0x83] : List Byte) ∧
    ({ connected with moves := [.command (.send 0xFE 0x82 [])] } : State).moves = .command (.send 0xFE 0x82 []) :: [] := by
  decide

/-- RECEIVE: the ids and the two start states are TRANSACT's. -/
theorem witness_AcceptanceChecksRunInOrder_receive :
    ({ connected with moves := [.command (.receive 0xFD)] } : State).moves = .command (.receive 0xFD) :: [] ∧
    ({ State.reset with moves := [.command (.receive 0xFE)] } : State).moves = .command (.receive 0xFE) :: [] := by
  exact ⟨rfl, rfl⟩

theorem witness_BusyBlockTakesNoCommand :
    (receiving .awaitHeader []).st ≠ .idle ∧ HostCmd.connect ≠ .disconnect ∧
    ({ receiving .awaitHeader [] with moves := [.command .connect] } : State).moves = .command .connect :: [] := by decide

theorem witness_ConnectOpensTheTransport :
    ({ connected with moves := [.command .connect] } : State).moves = .command .connect :: [] ∧
    ({ connected with moves := [.command .connect] } : State).st = .idle := by decide

theorem witness_DisconnectInIdleClosesTheTransport :
    ({ connected with moves := [.command .disconnect] } : State).moves = .command .disconnect :: [] ∧
    ({ connected with moves := [.command .disconnect] } : State).st = .idle := by decide

theorem witness_DisconnectAbortsACommand :
    (receiving .settling []).st ≠ .idle ∧
    ({ receiving .settling [] with moves := [.command .disconnect] } : State).moves = .command .disconnect :: [] ∧
    ({ receiving .complete [] with moves := [.command .disconnect, .internal] } : State).moves =
      .command .disconnect :: .internal :: [] := by decide

theorem witness_ReceiveAwaitsWithoutFlush :
    ({ connected with moves := [.command (.receive 0xFD)] } : State).moves = .command (.receive 0xFD) :: [] ∧
    connected.st = .idle ∧ connected.connected = true ∧ (0xFD : Byte).toNat ≤ 253 := by decide

/-- Room for the last byte of a queue of 4, and no room. -/
theorem witness_ProducerAppendsOneByte :
    (let s : State := { connected with rxq := [1, 2, 3], cfg := { testCfg with rxqCap := some 4 }, moves := [.rx 0xAA] }
     s.moves = .rx 0xAA :: [] ∧ s.connected = true ∧ ∀ cap, s.cfg.rxqCap = some cap → s.rxq.length < cap) ∧
    (let s : State := { connected with rxq := [1, 2, 3, 4], cfg := { testCfg with rxqCap := some 4 }, moves := [.rx 0xAA] }
     s.moves = .rx 0xAA :: [] ∧ s.connected = true ∧ ∃ cap, s.cfg.rxqCap = some cap ∧ cap ≤ s.rxq.length) :=
  ⟨⟨rfl, rfl, fun _ h => by cases h; decide⟩, ⟨rfl, rfl, 4, rfl, by decide⟩⟩

/-- A byte at a closed transport; an internal move in each kind of blocked state. -/
theorem witness_MovesNotEnabledChangeNothing :
    (let s : State := { State.reset with moves := [.rx 1] }
     s.moves = .rx 1 :: [] ∧ s.connected = false) ∧
    ({ connected with moves := [.internal] } : State).moves = .internal :: [] ∧
    internalStep connected = none ∧ internalStep (receiving .awaitHeader [0xFF]) = none ∧
    internalStep { transacting .settling 0x03 [] with settle := 1 } = none := by decide

theorem witness_QuietEnvironmentIsFair :
    connected.moves = [] ∧ internalStep connected = none ∧
    ((receiving .failed []).moves = [] ∧ (internalStep (receiving .failed [])).isSome = true) := by decide

theorem witness_TickCountsTheDeadlineAndTheSettle :
    ({ connected with moves := [.tick] } : State).moves = .tick :: [] ∧
    (receiving .awaitPayload []).st ∈ [Phase.awaitHeader, .awaitLength, .awaitPayload] ∧
    (receiving .settling []).st = .settling ∧
    (receiving .timedOut []).st ∈ [Phase.idle, .complete, .timedOut, .failed] ∧ 0 < 1 := by decide

theorem witness_ResetSetsEveryElement :
    ({ receiving .settling [] with moves := [.reset, .tick] } : State).moves = .reset :: [.tick] := by decide

theorem witness_DeadlineIsCheckedBeforeProgress :
    (let s : State := { receiving .awaitLength [0xFF, 0xFF, 0x05, 0x02] with elapsed := 3, moves := [.internal] }
     s.moves = .internal :: [] ∧ s.st ∈ [Phase.awaitHeader, .awaitLength, .awaitPayload] ∧
       s.cfg.timeoutTicks ≤ s.elapsed) := by decide

/-- One tick before the deadline; a header, a pair that is none, and a single byte. -/
theorem witness_HeaderSearchActsOnOnePair :
    (let s : State := { receiving .awaitHeader [0xFF, 0xFF] with elapsed := 2, moves := [.internal] }
     s.moves = .internal :: [] ∧ s.st = .awaitHeader ∧ s.elapsed < s.cfg.timeoutTicks ∧ s.rxq = 0xFF :: 0xFF :: []) ∧
    ((receiving .awaitHeader [0xFF, 0x34]).rxq = 0xFF :: 0x34 :: [] ∧ ¬((0xFF : Byte) = 0xFF ∧ (0x34 : Byte) = 0xFF)) ∧
    (receiving .awaitHeader [0xFF]).rxq.length < 2 := by decide

theorem witness_LengthByteSetsTotalLength :
    (let s : State := { receiving .awaitLength [0xFF, 0xFF, 0x05, 0xFF] with elapsed := 2, moves := [.internal] }
     s.moves = .internal :: [] ∧ s.st = .awaitLength ∧ s.elapsed < s.cfg.timeoutTicks ∧
       s.rxq = 0xFF :: 0xFF :: 0x05 :: 0xFF :: []) ∧
    (receiving .awaitLength [0xFF, 0xFF, 0x05]).rxq.length < 4 := by decide

theorem witness_PayloadIsExtractedWhole :
    (let s : State := { receiving .awaitPayload [0xFF, 0xFF, 0x05, 0x02, 0x00, 0xF8] with
       totalLen := 6, elapsed := 2, moves := [.internal] }
     s.moves = .internal :: [] ∧ s.st = .awaitPayload ∧ s.elapsed < s.cfg.timeoutTicks ∧
       s.rxq = [0xFF, 0xFF, 0x05, 0x02, 0x00, 0xF8] ++ [] ∧
       [0xFF, 0xFF, 0x05, 0x02, 0x00, (0xF8 : Byte)].length = s.totalLen.toNat) ∧
    (let s : State := { receiving .awaitPayload [0xFF, 0xFF, 0x05, 0x02, 0x00] with totalLen := 6 }
     s.rxq.length < s.totalLen.toNat) := by decide

theorem witness_TimeoutEmptiesTheQueue :
    ({ receiving .timedOut [0xFF] with moves := [.internal] } : State).moves = .internal :: [] ∧
    ({ receiving .timedOut [0xFF] with moves := [.internal] } : State).st = .timedOut := by decide

theorem witness_CompleteValidatesAndFinishes :
    ({ receiving .complete [] with moves := [.internal] } : State).moves = .internal :: [] ∧
    ({ receiving .complete [] with moves := [.internal] } : State).st = .complete := by decide

theorem witness_FinishSettlesByClass :
    (receiving .complete []).mode = .receive ∧ (transacting .complete 0x01 []).mode ≠ .receive ∧
    settleClassOf testCfg 0x01 = .none ∧ settleClassOf testCfg 0x03 = .write ∧ settleClassOf testCfg 0x06 = .reset ∧
    (transacting .complete 0x03 []).reqInstr = 0x03 ∧ (transacting .complete 0x03 []).cfg = testCfg ∧
    0 < testCfg.settleWriteTicks ∧ 0 < testCfg.settleResetTicks ∧
    (let p : Params := { testCfg with settleWriteTicks := 0, settleResetTicks := 0 }
     settleClassOf p 0x03 = .write ∧ p.settleWriteTicks = 0 ∧ settleClassOf p 0x06 = .reset ∧ p.settleResetTicks = 0) := by
  decide

theorem witness_DefaultSettleClasses :
    testCfg.settleClass = Config.defaultSettleClass ∧
    (0x07 : Byte) ∉ ([0x01, 0x02, 0x03, 0x04, 0x05, 0x06, 0x08, 0x82, 0x83] : List Byte) := by decide

theorem witness_FailedPostsConnectionLost :
    ({ receiving .failed [] with moves := [.internal] } : State).moves = .internal :: [] ∧
    ({ receiving .failed [] with moves := [.internal] } : State).st = .failed := by decide

theorem witness_SettlingWaitsForItsCounter :
    (transacting .settling 0x03 []).st = .settling ∧
    (let s : State := { transacting .settling 0x03 [] with settle := 1, moves := [.internal] }
     s.moves = .internal :: [] ∧ 0 < s.settle) ∧
    (let s : State := { transacting .settling 0x03 [] with settle := 1, moves := [.tick] }
     s.moves = .tick :: [] ∧ 0 < s.settle) ∧
    (let s : State := { transacting .settling 0x03 [] with moves := [.internal] }
     s.moves = .internal :: [] ∧ s.settle = 0) ∧
    ({ transacting .settling 0x03 [] with moves := [.command .disconnect] } : State).moves =
      .command .disconnect :: [] := by decide

theorem witness_SettleDelayWithholdsDone :
    (let s : State := { transacting .settling 0x03 [] with settle := 2 }
     s.st = .settling ∧ s.moves = [] ∧ 0 ≤ s.settle ∧ 2 ≤ s.settle) := by decide

theorem witness_ValidateChecksInOrder :
    decodeFrame [0xFF, 0xFF, 0x05, 0x00] = .invalidResponse .short ∧
    decodeFrame [0xFF, 0xFF, 0x05, 0x02, 0x00, 0xF9] = .checksumError 5 ∧
    (let f : Frame := { id := 5, length := 2, err := 0x24, params := [], checksum := 0xD4 }
     decodeFrame [0xFF, 0xFF, 0x05, 0x02, 0x24, 0xD4] = .frame f ∧ f.id ≠ 6 ∧ f.id = 5 ∧ f.err ≠ 0) ∧
    (let f : Frame := { id := 5, length := 2, err := 0, params := [], checksum := 0xF8 }
     decodeFrame [0xFF, 0xFF, 0x05, 0x02, 0x00, 0xF8] = .frame f ∧ f.id = 5 ∧ f.err = 0) := by decide

/-- A frame of 6 bytes in progress, its last byte about to be read. -/
def awaitingPayload : State := { receiving .awaitPayload [0xFF, 0xFF, 0x05, 0x02, 0x00, 0xF8] with totalLen := 6 }

theorem awaitingPayload_inv : Machine.Inv awaitingPayload :=
  ⟨by decide, by decide, by decide, by decide, by decide, by decide, by decide, by decide, by decide, by decide, by decide,
   by decide, fun _ h => (nomatch h), by decide, by decide, by decide, by decide⟩

/-- An extracted frame of 5 bytes, whose `LEN` byte is 1. -/
def completeShort : State :=
  { receiving .complete [0xAA] with totalLen := 5, frameBuf := [0xFF, 0xFF, 0x05, 0x01, 0x00] }

theorem completeShort_inv : Machine.Inv completeShort :=
  ⟨by decide, by decide, by decide, by decide, by decide, by decide, by decide, by decide, by decide, by decide, by decide,
   by decide, fun _ h => (nomatch h), by decide, by decide, by decide, by decide⟩

theorem witness_EveryStepKeepsTheInvariant : Machine.Inv awaitingPayload ∧ ∃ t, step awaitingPayload = .next t :=
  ⟨awaitingPayload_inv, _, step_eq _⟩

theorem witness_ExtractedFramesFailOnlyAsShort :
    Machine.Inv completeShort ∧ completeShort.st = .complete ∧ completeShort.moves = [] ∧
    (∃ t, step completeShort = .next t) ∧ (byteAt completeShort.frameBuf 3).toNat < 2 :=
  ⟨completeShort_inv, rfl, rfl, ⟨_, step_eq _⟩, by decide⟩

/-- An extracted frame of 6 bytes, with an internal move and a tick to come. -/
def completeWhole : State :=
  { receiving .complete [] with
    totalLen := 6, frameBuf := [0xFF, 0xFF, 0x05, 0x02, 0x00, 0xF8], moves := [.internal, .tick] }

theorem completeWhole_inv : Machine.Inv completeWhole :=
  ⟨by decide, by decide, by decide, by decide, by decide, by decide, by decide, by decide, by decide, by decide, by decide,
   by decide, fun _ h => (nomatch h), by decide, by decide, by decide, by decide⟩

theorem witness_ExtractedFramesFailOnlyAsShort_internal :
    Machine.Inv completeWhole ∧ completeWhole.st = .complete ∧ (∃ rest, completeWhole.moves = .internal :: rest) ∧
    (∃ t, step completeWhole = .next t) ∧ ¬(byteAt completeWhole.frameBuf 3).toNat < 2 :=
  ⟨completeWhole_inv, rfl, ⟨_, rfl⟩, ⟨_, step_eq _⟩, by decide⟩

/-- The pair at index 0, and after two bytes of garbage. -/
theorem witness_FirstHeaderPairWins :
    (let s := receiving .awaitHeader [0xFF, 0xFF]
     s.st = .awaitHeader ∧ s.elapsed < s.cfg.timeoutTicks ∧ 0 + 1 < s.rxq.length ∧ byteAt s.rxq 0 = 0xFF ∧
       byteAt s.rxq 1 = 0xFF) ∧
    (let s := receiving .awaitHeader [0xFF, 0x34, 0xFF, 0xFF]
     s.st = .awaitHeader ∧ s.elapsed < s.cfg.timeoutTicks ∧ 2 + 1 < s.rxq.length ∧
       (∀ j, j < 2 → ¬(byteAt s.rxq j = 0xFF ∧ byteAt s.rxq (j + 1) = 0xFF)) ∧
       byteAt s.rxq 2 = 0xFF ∧ byteAt s.rxq (2 + 1) = 0xFF) := by decide

/-- The bytes of L1-5, and no garbage at all. -/
theorem witness_GarbageBeforeAFrameIsDiscarded :
    decodeFrame [0xFF, 0xFF, 0x05, 0x02, 0x00, 0xF8] =
      .frame { id := 5, length := 2, err := 0, params := [], checksum := 0xF8 } ∧
    (let g : List Byte := [0x00, 0x12, 0xFF, 0x34]
     let f : List Byte := [0xFF, 0xFF, 0x05, 0x02, 0x00, 0xF8]
     let s := receiving .awaitHeader [0x00, 0x12, 0xFF, 0x34, 0xFF, 0xFF, 0x05, 0x02, 0x00, 0xF8]
     s.st = .awaitHeader ∧ s.elapsed < s.cfg.timeoutTicks ∧ s.rxq = g ++ f ++ [] ∧
       ∀ j, j < g.length → ¬(byteAt (g ++ f) j = 0xFF ∧ byteAt (g ++ f) (j + 1) = 0xFF)) := by decide

/-- `LEN` 0 with nothing after it, and `LEN` 1 with S6's bytes. -/
theorem witness_ShortLengthByteIsInvalidResponse :
    (let s := receiving .awaitLength [0xFF, 0xFF, 0x05, 0x00]
     s.st = .awaitLength ∧ s.elapsed < s.cfg.timeoutTicks ∧ s.rxq = 0xFF :: 0xFF :: 0x05 :: 0x00 :: [] ∧
       (0x00 : Byte).toNat < 2 ∧ (0x00 : Byte).toNat ≤ ([] : List Byte).length) ∧
    (let s := receiving .awaitLength [0xFF, 0xFF, 0x05, 0x01, 0x00, 0xFF]
     s.st = .awaitLength ∧ s.elapsed < s.cfg.timeoutTicks ∧ s.rxq = 0xFF :: 0xFF :: 0x05 :: 0x01 :: [0x00, 0xFF] ∧
       (0x01 : Byte).toNat < 2 ∧ (0x01 : Byte).toNat ≤ [0x00, (0xFF : Byte)].length) := by decide

/-- Two ticks of three. -/
theorem witness_TimeoutIsNeverEarly :
    (let s : State := { receiving .awaitHeader [] with moves := [.tick, .tick] }
     s.moves = [.tick, .tick] ++ [] ∧ s.st ≠ .timedOut ∧ s.elapsed + tickCount [.tick, .tick] < s.cfg.timeoutTicks ∧
       runsTo [Move.tick, .tick].length s { receiving .awaitHeader [] with elapsed := 2 }) :=
  ⟨rfl, by decide, by decide, rfl⟩

/-- Three ticks, two internal moves, five ticks and one internal move, with a byte and a command between them. -/
def fairMoves : List Move :=
  [.tick, .internal, .tick, .rx 0xAA, .tick, .internal, .internal, .command .connect, .tick, .tick, .tick, .tick, .tick,
   .internal]

theorem witness_EveryCommandEndsWithAResult :
    Machine.Inv { awaitingPayload with moves := fairMoves } ∧ awaitingPayload.st ≠ .idle ∧
    ({ awaitingPayload with moves := fairMoves } : State).moves = fairMoves ++ [] ∧ Move.reset ∉ fairMoves ∧
    (endingMoves awaitingPayload.cfg).Sublist fairMoves :=
  ⟨inv_withMoves awaitingPayload_inv _, by decide, by decide, by decide, by decide⟩

theorem witness_SilentEnvironmentEndsEveryCommand :
    Machine.Inv awaitingPayload ∧ awaitingPayload.st ≠ .idle ∧ awaitingPayload.moves = [] :=
  ⟨awaitingPayload_inv, by decide, rfl⟩

/-- The hypothesis is met, and both transmitting forms occur: a TRANSACT and a SEND, at the ends of their ids. -/
theorem witness_OnlyAcceptedRequestsTransmit :
    (∃ t, step connected = .next t) ∧
    after connected (.command (.transact 0xFD 0x08 [])) (fun s => writes s.txh) = some [encodeFrame 0xFD 0x08 []] ∧
    after connected (.command (.send 0xFE 0x82 [])) (fun s => writes s.txh) = some [encodeFrame 0xFE 0x82 []] :=
  ⟨⟨_, step_eq _⟩, by decide, by decide⟩

theorem witness_ParametersNeverChange : ∃ t, step awaitingPayload = .next t := ⟨_, step_eq _⟩

theorem witness_InboundQueueIsFirstInFirstOut : ∃ t, step awaitingPayload = .next t := ⟨_, step_eq _⟩

/-- A step for each clause: CONNECT, DISCONNECT, a byte at a full queue, an acceptance, and an internal step that posts, listed
and in a silent environment. -/
theorem witness_StatusFlagsChangeOnlyAsListed :
    after State.reset (.command .connect) (fun s => (s.connected, s.done)) = some (true, true) ∧
    after connected (.command .disconnect) (fun s => s.connected) = some false ∧
    after { connected with rxq := [1], cfg := { testCfg with rxqCap := some 1 } } (.rx 2) (fun s => s.rxOverflow) =
      some true ∧
    after { connected with rxOverflow := true } (.command .connect) (fun s => s.rxOverflow) = some false ∧
    after connected (.command (.receive 5)) (fun s => s.done) = some false ∧
    after (receiving .failed []) .internal (fun s => (s.st, s.done)) = some (.idle, true) ∧
    (nextState (step (receiving .failed []))).map (fun s => (s.st, s.done)) = some (.idle, true) := by decide

/-- A queue that holds the reply of 8 bytes and no more. -/
theorem witness_TransactReturnsTheDeviceReply :
    (let s : State := { connected with
       cfg := { testCfg with rxqCap := some 8 },
       moves := .command (.transact 0x07 0x02 [0x38, 0x02]) ::
         ((encodeFrame 0x07 0 [0x00, 0x08]).map .rx ++ (List.replicate 4 .internal ++ [])) }
     s.st = .idle ∧ s.connected = true ∧ s.cfg.admissible = true ∧
       (∀ cap, s.cfg.rxqCap = some cap → [0x00, (0x08 : Byte)].length + 6 ≤ cap) ∧ (0x07 : Byte).toNat ≤ 253 ∧
       (0x02 : Byte) ∈ ([0x01, 0x02, 0x03, 0x04, 0x05, 0x06, 0x08] : List Byte) ∧ [0x38, (0x02 : Byte)].length ≤ 253 ∧
       [0x00, (0x08 : Byte)].length ≤ 253 ∧
       s.moves = .command (.transact 0x07 0x02 [0x38, 0x02]) ::
         ((encodeFrame 0x07 0 [0x00, 0x08]).map .rx ++ (List.replicate 4 .internal ++ []))) :=
  ⟨rfl, rfl, by decide, fun _ h => by cases h; decide, by decide, by decide, by decide, by decide, rfl⟩

/-- T29. -/
theorem witness_ReceiveConsumesAnotherDevicesReply :
    (let s : State := { connected with
       rxq := [0xFF, 0xFF, 0x03, 0x04, 0x00, 0x10, 0x00, 0xE8],
       moves := .command (.receive 0x02) :: (List.replicate 4 .internal ++ []) }
     s.st = .idle ∧ s.connected = true ∧ s.cfg.admissible = true ∧ (0x02 : Byte).toNat ≤ 253 ∧ (0x02 : Byte) ≠ 0x03 ∧
       [0x10, (0x00 : Byte)].length ≤ 253 ∧ s.rxq = encodeFrame 0x03 0x00 [0x10, 0x00] ++ [] ∧
       s.moves = .command (.receive 0x02) :: (List.replicate 4 .internal ++ [])) := by decide

/-- An empty batch, a value of the wrong width, and a batch the host's checks let through. -/
theorem witness_GroupWriteIsOneSend :
    (∃ e ∈ [((0x01 : Byte), [(0x00 : Byte)])], e.2.length ≠ (0x02 : Byte).toNat) ∧
    [((0x01 : Byte), [(0x00 : Byte), 0x08])] ≠ [] ∧
    ∀ e ∈ [((0x01 : Byte), [(0x00 : Byte), 0x08])], e.2.length = (0x02 : Byte).toNat := by decide

end Sys2Proof.Tests
end

section
/-! PROOFS. What a decoded request frame says, and the step that runs it (O11). -/

namespace Sys2Proof

/-- The fields of a decoded frame are the bytes R109 names. -/
theorem decodeFrame_frame_fields {b : List Byte} {f : Frame} (h : decodeFrame b = .frame f) :
    f.id = byteAt b 2 ∧ f.err = byteAt b 4 ∧ f.params = slice b 5 (b.length - 2) := by
  rcases decodeFrame_cases b with ⟨hb, _⟩ | ⟨hb, _⟩ | ⟨hb, _⟩ | ⟨hb, _⟩ | ⟨hb, _⟩ <;> rw [hb] at h <;> cases h
  exact ⟨rfl, rfl, rfl⟩

/-- A request is accepted when its frame decodes (R104), its code names an instruction (R79) and its id is a legal
target of that instruction (R51). -/
theorem decode_eq_ok_iff {b : List Byte} {i : Instr} :
    decode b = .ok i ↔
      ∃ f, decodeFrame b = .frame f ∧ instrOf f.err f.id f.params = some i ∧ i.idOk = true := by
  unfold decode
  cases decodeFrame b with
  | invalidResponse r => cases r <;> simp
  | checksumError id => simp
  | frame f =>
    cases hi : instrOf f.err f.id f.params with
    | none => simp [hi]
    | some j =>
      cases hj : j.idOk with
      | false => simpa [hi, hj] using fun h : j = i => h ▸ hj
      | true => simpa [hi, hj] using fun h : j = i => h ▸ hj

/-- The operands of a decoded instruction stand in the request frame at bytes 4, 2 and 5 onwards (R70). -/
theorem decode_ok_operands {b : List Byte} {i : Instr} (h : decode b = .ok i) :
    opcode i = byteAt b 4 ∧ i.id = byteAt b 2 ∧ i.params = slice b 5 (b.length - 2) := by
  obtain ⟨f, hf, hi, -⟩ := decode_eq_ok_iff.mp h
  obtain ⟨hid, herr, hparams⟩ := decodeFrame_frame_fields hf
  rw [← hid, ← herr, ← hparams]
  exact instrOf_eq_some hi

/-- The host command that sends an instruction, with the instruction's operands (R79, R87). -/
def Instr.command (i : Instr) : HostCmd :=
  match i.sender with
  | .transact => .transact i.id (opcode i) i.params
  | .send => .send i.id (opcode i) i.params

/-- The command read off a request frame is the one that sends the decoded instruction. -/
theorem requestCommand_of_decode {b : List Byte} {i : Instr} (h : decode b = .ok i) :
    requestCommand b = i.command := by
  obtain ⟨hcode, hid, hparams⟩ := decode_ok_operands h
  simp only [requestCommand, ← hcode, ← hid, ← hparams]
  cases i <;> rfl

namespace Machine

/-- An instruction's meaning is the offer of the command that sends it (R79). -/
theorem exec_eq_offerOther (i : Instr) (s : State) : exec i s = .next (offerOther i.command s) := by
  cases i <;> rfl

/-- Settles O11: the offered command is the one that sends `i`, and offering that command is `exec i`. -/
theorem stepRunsTheDecodedInstruction : Obligations.StepRunsTheDecodedInstruction := by
  intro s b i rest hdecode hmoves
  calc step s
      = .next (offerOther (requestCommand b) { s with moves := rest }) := step_move hmoves
    _ = .next (offerOther i.command { s with moves := rest }) := by rw [requestCommand_of_decode hdecode]
    _ = exec i { s with moves := rest } := (exec_eq_offerOther i _).symm

end Machine

end Sys2Proof
end

section
/-! PROOFS. What each kind of step leaves of the parameters and the moves, and the numeric codes and reset values of the
state elements (O51, O27, O56). -/

namespace Sys2Proof.Machine

/-- Every step is the one `afterStep` names. -/
theorem eq_afterStep_of_step {s t : State} (h : step s = .next t) : t = afterStep s := by
  rw [step_eq] at h
  exact (Host.Outcome.next.inj h).symm

/-- Everything an internal move can do: an enabled internal step, or nothing (R14). -/
theorem internalMove_cases (s : State) :
    internalStep s = some (internalMove s) ∨ (internalStep s = none ∧ internalMove s = s) := by
  unfold internalMove
  cases internalStep s with
  | none => exact .inr ⟨rfl, rfl⟩
  | some t => exact .inl rfl

/-- Everything a step without a listed move can do: an enabled internal step, or a tick (R141). -/
theorem quietMove_cases (s : State) :
    internalStep s = some (quietMove s) ∨ (internalStep s = none ∧ quietMove s = tick s) := by
  unfold quietMove
  cases internalStep s with
  | none => exact .inr ⟨rfl, rfl⟩
  | some t => exact .inl rfl

/-- Everything a step can do, by the move at the head of the list. -/
theorem afterStep_cases (s : State) :
    (s.moves = [] ∧ afterStep s = quietMove s) ∨
    ∃ m rest, s.moves = m :: rest ∧ afterStep s = afterMove m { s with moves := rest } := by
  unfold afterStep
  cases s.moves with
  | nil => exact .inl ⟨rfl, rfl⟩
  | cons m rest => exact .inr ⟨m, rest, rfl, rfl⟩

theorem tick_cfg_moves (s : State) : (tick s).cfg = s.cfg ∧ (tick s).moves = s.moves := by
  rcases tick_cases s with ⟨_, h⟩ | ⟨_, _, h⟩ | ⟨_, _, h⟩ <;> simp [h]

theorem rxPush_cfg_moves (b : Byte) (s : State) : (rxPush b s).cfg = s.cfg ∧ (rxPush b s).moves = s.moves := by
  rcases rxPush_cases b s with ⟨_, h⟩ | ⟨_, _, h⟩ | ⟨_, _, h⟩ <;> simp [h]

theorem offerOther_cfg_moves (c : HostCmd) (s : State) :
    (offerOther c s).cfg = s.cfg ∧ (offerOther c s).moves = s.moves := by
  rcases offerOther_cases c s with ⟨_, _, h⟩ | ⟨_, _, h⟩ | ⟨_, _, h⟩ | ⟨_, _, h⟩ | ⟨_, _, h⟩ |
    ⟨_, _, _, _, _, _, h⟩ | ⟨_, _, _, _, _, _, _, h⟩ | ⟨_, _, _, _, h⟩ <;> simp [h]

theorem internalStep_cfg_moves {s t : State} (h : internalStep s = some t) : t.cfg = s.cfg ∧ t.moves = s.moves := by
  rcases internalStep_cases h with ⟨_, _, rfl⟩ | ⟨_, _, _, _, rfl⟩ | ⟨_, _, _, _, rfl⟩ | ⟨_, _, _, rfl⟩ |
    ⟨_, _, _, rfl⟩ | ⟨_, rfl⟩ | ⟨_, rfl⟩ | ⟨_, rfl⟩ | ⟨_, _, rfl⟩ <;> simp

theorem quietMove_cfg_moves (s : State) : (quietMove s).cfg = s.cfg ∧ (quietMove s).moves = s.moves := by
  rcases quietMove_cases s with h | ⟨_, h⟩
  · exact internalStep_cfg_moves h
  · rw [h]; exact tick_cfg_moves s

theorem afterMove_cfg_moves (m : Move) (s : State) :
    (afterMove m s).cfg = s.cfg ∧ (afterMove m s).moves = s.moves := by
  cases m with
  | command c => exact offerOther_cfg_moves c s
  | rx b => exact rxPush_cfg_moves b s
  | tick => exact tick_cfg_moves s
  | internal =>
    show (internalMove s).cfg = s.cfg ∧ (internalMove s).moves = s.moves
    rcases internalMove_cases s with h | ⟨_, h⟩
    · exact internalStep_cfg_moves h
    · rw [h]; exact ⟨rfl, rfl⟩
  | reset => exact ⟨resetBlock_cfg s, resetBlock_moves s⟩

/-- Settles O51: no move writes the parameters or the list; only `step` itself takes the first move off it. -/
theorem parametersNeverChange : Obligations.ParametersNeverChange := by
  intro s t hstep
  rw [eq_afterStep_of_step hstep]
  rcases afterStep_cases s with ⟨hnil, h⟩ | ⟨m, rest, hcons, h⟩
  · simpa [h, hnil] using quietMove_cfg_moves s
  · simpa [h, hcons] using afterMove_cfg_moves m { s with moves := rest }

/-- Settles O27: `State.reset` is R41's table, and a reset move replaces all but the parameters and the coming moves. -/
theorem resetSetsEveryElement : Obligations.ResetSetsEveryElement :=
  ⟨rfl, fun _ _ hmoves => step_move hmoves⟩

/-- Settles O56: each code function, evaluated on its whole type. -/
theorem numericCodesOfTheStateElements : Obligations.NumericCodesOfTheStateElements :=
  ⟨by decide, by decide, by decide, by decide⟩

end Sys2Proof.Machine
end
section
/-! PROOFS. Every result a rule computes has the shape R237 gives its kind. -/

namespace Sys2Proof.Machine

theorem wellShaped_invalidParameter {id : Byte} {r : Reason} (h : r = .badId ∨ r = .badInstr ∨ r = .tooManyParams) :
    (Result.failure .invalidParameter id r).wellShaped = true := by
  rcases h with rfl | rfl | rfl <;> rfl

theorem wellShaped_invalidResponse {id : Byte} {r : Reason}
    (h : r = .short ∨ r = .header ∨ r = .length ∨ r = .idMismatch) :
    (Result.failure .invalidResponse id r).wellShaped = true := by
  rcases h with rfl | rfl | rfl | rfl <;> rfl

@[simp] theorem wellShaped_connectionLost (id : Byte) :
    (Result.failure .connectionLost id .none).wellShaped = true := by
  simp [Result.wellShaped, Result.failure]

@[simp] theorem wellShaped_timeout (id : Byte) : (Result.failure .timeout id .none).wellShaped = true := by
  simp [Result.wellShaped, Result.failure]

@[simp] theorem wellShaped_checksumError (id : Byte) :
    (Result.failure .checksumError id .none).wellShaped = true := by
  simp [Result.wellShaped, Result.failure]

@[simp] theorem wellShaped_okay_zero : (Result.okay 0).wellShaped = true := rfl

@[simp] theorem wellShaped_okay_broadcast : (Result.okay 0xFE).wellShaped = true := rfl

section
variable {c : Bool} {id instr : Byte} {p : List Byte} {r : Result}

theorem checkConnection_wellShaped (h : checkConnection c id = some r) : r.wellShaped = true := by
  cases c with
  | true => cases h
  | false => cases h; exact wellShaped_connectionLost id

theorem checkTransact_wellShaped (h : checkTransact c id instr p = some r) : r.wellShaped = true := by
  unfold checkTransact at h
  split_ifs at h
  · cases h; exact wellShaped_invalidParameter (.inl rfl)
  · cases h; exact wellShaped_invalidParameter (.inr (.inr rfl))
  · exact checkConnection_wellShaped h
  · cases h; exact wellShaped_invalidParameter (.inr (.inl rfl))

theorem checkSend_wellShaped (h : checkSend c id instr p = some r) : r.wellShaped = true := by
  unfold checkSend at h
  split_ifs at h
  · cases h; exact wellShaped_invalidParameter (.inl rfl)
  · cases h; exact wellShaped_invalidParameter (.inr (.inr rfl))
  · exact checkConnection_wellShaped h
  · cases h; exact wellShaped_invalidParameter (.inr (.inl rfl))

theorem checkReceive_wellShaped (h : checkReceive c id = some r) : r.wellShaped = true := by
  unfold checkReceive at h
  split_ifs at h
  · cases h; exact wellShaped_invalidParameter (.inl rfl)
  · exact checkConnection_wellShaped h

end

/-- Acceptance leaves a well-shaped result when the check's failures and the command's rule do. -/
theorem accept_wellShaped {check : Option Result} {run : State → State} {s : State}
    (hs : s.result.wellShaped = true) (hcheck : ∀ r, check = some r → r.wellShaped = true)
    (hrun : (run (acknowledge s)).result.wellShaped = true) : (accept check run s).result.wellShaped = true := by
  rcases accept_cases check run s with ⟨_, h⟩ | ⟨_, r, hr, h⟩ | ⟨_, _, h⟩ <;> rw [h]
  · exact hs
  · exact hcheck r hr
  · exact hrun

/-- Whatever command is offered, the result it leaves is well shaped if the one before it was. -/
theorem offerOther_wellShaped {s : State} (hs : s.result.wellShaped = true) (c : HostCmd) :
    (offerOther c s).result.wellShaped = true := by
  cases c with
  | connect => exact accept_wellShaped hs (fun _ h => nomatch h) wellShaped_okay_zero
  | disconnect =>
    show (offerDisconnect s).result.wellShaped = true
    unfold offerDisconnect
    split
    · exact wellShaped_okay_zero
    · exact hs
  | transact id code p => exact accept_wellShaped hs (fun _ h => checkTransact_wellShaped h) hs
  | send id code p =>
    refine accept_wellShaped hs (fun _ h => checkSend_wellShaped h) ?_
    rw [runSend, conclude, finish_result]
    exact wellShaped_okay_broadcast
  | receive id => exact accept_wellShaped hs (fun _ h => checkReceive_wellShaped h) hs

/-- `Decode` rejects with one of three reasons (R104). -/
theorem decodeFrame_reason {b : List Byte} {r : Reason} (h : decodeFrame b = .invalidResponse r) :
    r = .short ∨ r = .header ∨ r = .length := by
  rcases decodeFrame_cases b with ⟨hb, _⟩ | ⟨hb, _⟩ | ⟨hb, _⟩ | ⟨hb, _⟩ | ⟨hb, _⟩ <;> rw [hb] at h <;> cases h
  · exact .inl rfl
  · exact .inr (.inl rfl)
  · exact .inr (.inr rfl)

/-- A frame judged against a unicast id gives a well-shaped result: only that id with a zero error byte is `OK` (R178). -/
theorem judgeFrame_wellShaped {e : Byte} (he : unicastIdOk e = true) (f : Frame) :
    (judgeFrame f e).wellShaped = true := by
  unfold judgeFrame errorBitsToFailure
  split_ifs with hid herr
  · exact wellShaped_invalidResponse (.inr (.inr (.inr rfl)))
  · simpa [Result.wellShaped, herr, not_not.mp hid] using he
  · simpa [Result.wellShaped] using herr

theorem validate_wellShaped {e : Byte} (he : unicastIdOk e = true) (b : List Byte) :
    (validate b e).wellShaped = true := by
  unfold validate
  split
  · rename_i r hb
    have hr := decodeFrame_reason hb
    exact wellShaped_invalidResponse (by tauto)
  · exact wellShaped_checksumError _
  · exact judgeFrame_wellShaped he _

end Sys2Proof.Machine
end
section
/-! PROOFS. The invariant of the block: what each update and each rule needs to keep it, and that every step does (O41,
O42). -/

namespace Sys2Proof.Machine

/-- `done` is 0 while a command runs: R43 (d) read backwards. -/
theorem Inv.done_false {s : State} (hi : Inv s) (h : s.st ≠ .idle) : s.done = false :=
  Bool.eq_false_iff.mpr fun hd => h (hi.done_idle hd)

/-! The updates the rules are made of. -/

/-- Any well-shaped result may be recorded. -/
theorem Inv.withResult {s : State} (hi : Inv s) {r : Result} (hr : r.wellShaped = true) :
    Inv { s with result := r } :=
  { hi with result_shape := hr }

/-- The invariant does not speak of the history, `rx_overflow` and the request's code. -/
theorem Inv.withUnconstrained {s : State} (hi : Inv s) (h : List TxEvent) (o : Bool) (code : Byte) :
    Inv { s with txh := h, rxOverflow := o, reqInstr := code } :=
  { hi with }

/-- `done` may be cleared, and in `IDLE` it may be set. -/
theorem Inv.withDone {s : State} (hi : Inv s) (d : Bool) (hd : d = true → s.st = .idle) : Inv { s with done := d } :=
  { hi with done_idle := hd }

/-- The mode is bound only while a reply is received. -/
theorem Inv.withMode {s : State} (hi : Inv s) (hr : s.st.receiving = false) (m : Mode) : Inv { s with mode := m } :=
  { hi with receiving_mode := fun h => absurd (hr.symm.trans h) (by decide) }

/-- The settle counter may be cleared, and in `SETTLING` it may be loaded (R245). -/
theorem Inv.withSettle {s : State} (hi : Inv s) {k : Nat} (hz : s.st ≠ .settling → k = 0)
    (hk : k ≤ max s.cfg.settleWriteTicks s.cfg.settleResetTicks) : Inv { s with settle := k } :=
  { hi with settle_zero := hz, settle_range := hk }

/-- The transport may be opened (R163). -/
theorem Inv.opened {s : State} (hi : Inv s) : Inv { s with connected := true } :=
  { hi with
    receiving_connected := fun _ => rfl
    closed_empty := fun h => nomatch h
    settling_connected := fun _ => rfl }

/-- Bytes may go from the head of the queue in a state that does not rely on a header there (R57 to R59). -/
theorem Inv.dropped {s : State} (hi : Inv s) (hl : s.st ≠ .awaitLength) (hp : s.st ≠ .awaitPayload) (n : Nat) :
    Inv { s with rxq := s.rxq.drop n } :=
  { hi with
    header_held := fun h => (h.elim hl hp).elim
    length_read := fun h => absurd h hp
    rxq_cap := fun cap hcap => (List.drop_sublist n s.rxq).length_le.trans (hi.rxq_cap cap hcap)
    closed_empty := fun h => by simp [hi.closed_empty h] }

theorem Inv.emptied {s : State} (hi : Inv s) (hl : s.st ≠ .awaitLength) (hp : s.st ≠ .awaitPayload) :
    Inv { s with rxq := [] } := by
  simpa using hi.dropped hl hp s.rxq.length

/-- A receiving command may go on to any receiving state whose own clauses hold (R43 (a), R147). -/
theorem Inv.receivesOn {s : State} (hi : Inv s) (hr : s.st.receiving = true) {p : Phase} (hp : p.receiving = true)
    (hheader : p = .awaitLength ∨ p = .awaitPayload → s.rxq.take 2 = [Config.hdr0, Config.hdr1])
    (hlength : p = .awaitPayload →
      4 ≤ s.rxq.length ∧ s.totalLen.toNat = (byteAt s.rxq 3).toNat + Config.frameOverhead)
    (hextracted : p = .complete →
      4 ≤ s.frameBuf.length ∧ s.frameBuf.take 2 = [Config.hdr0, Config.hdr1] ∧
        s.frameBuf.length = (byteAt s.frameBuf 3).toNat + Config.frameOverhead) :
    Inv { s with st := p } :=
  { hi with
    receiving_connected := fun _ => hi.receiving_connected hr
    receiving_mode := fun _ => hi.receiving_mode hr
    settle_zero := fun _ => hi.settle_zero fun h => by rw [h] at hr; cases hr
    done_idle := fun h => by rw [hi.done_idle h] at hr; cases hr
    header_held := hheader
    length_read := hlength
    extracted := hextracted
    expId_unicast := fun _ => hi.expId_unicast hr
    settling_connected := fun h => by cases h; cases hp }

/-- A command may end, or wait for its settle delay with the transport open. -/
theorem Inv.stopped {s : State} (hi : Inv s) (p : Phase) (d : Bool) (hp : p.receiving = false)
    (hz : p ≠ .settling → s.settle = 0) (hc : p = .settling → s.connected = true) (hd : d = true → p = .idle) :
    Inv { s with st := p, done := d } := by
  have hno : p.receiving ≠ true := Bool.eq_false_iff.mp hp
  exact { hi with
    receiving_connected := fun h => absurd h hno
    receiving_mode := fun h => absurd h hno
    settle_zero := hz
    done_idle := hd
    header_held := fun h => by rcases h with rfl | rfl <;> cases hp
    length_read := fun h => by cases h; cases hp
    extracted := fun h => by cases h; cases hp
    expId_unicast := fun h => absurd h hno
    settling_connected := hc }

/-- A command may end in `IDLE`, with its result posted. -/
theorem Inv.ends {s : State} (hi : Inv s) (hz : s.settle = 0) : Inv { s with st := .idle, done := true } :=
  hi.stopped .idle true rfl (fun _ => hz) (fun h => nomatch h) (fun _ => rfl)

/-- The transport may be closed in `IDLE` and in `FAILED` (R164, R165). -/
theorem Inv.closed {s : State} (hi : Inv s) (hst : s.st = .idle ∨ s.st = .failed) :
    Inv { s with connected := false, rxq := [] } := by
  have he : Inv { s with rxq := [] } :=
    hi.emptied (fun h => by simp [h] at hst) (fun h => by simp [h] at hst)
  exact { he with
    receiving_connected := fun (h : s.st.receiving = true) => by
      rcases hst with hs | hs <;> rw [hs] at h <;> cases h
    closed_empty := fun _ => rfl
    settling_connected := fun (h : s.st = .settling) => by simp [h] at hst }

/-- An accepted TRANSACT or RECEIVE starts to receive (R167, R175). -/
theorem Inv.awaitsHeader {s : State} (hi : Inv s) (hst : s.st = .idle) (hc : s.connected = true) {m : Mode}
    (hm : m = .transact ∨ m = .receive) {id : Byte} (hid : id.toNat ≤ 253) :
    Inv { s with done := false, mode := m, expId := id, elapsed := 0, st := .awaitHeader } :=
  { hi with
    receiving_connected := fun _ => hc
    receiving_mode := fun _ => hm
    settle_zero := fun _ => hi.settle_zero (by simp [hst])
    done_idle := fun h => nomatch h
    elapsed_le := Nat.zero_le _
    header_held := fun h => by simp at h
    length_read := fun h => nomatch h
    extracted := fun h => nomatch h
    expId_unicast := fun _ => decide_eq_true hid
    settling_connected := fun h => nomatch h }

/-- `Finish` keeps the invariant at the end of a command whose transport is open (R180). -/
theorem inv_finish {s : State} (hi : Inv s) (hc : s.connected = true) (hd : s.done = false) : Inv (finish s) := by
  rcases finish_cases s with ⟨_, h⟩ | ⟨_, h⟩ <;> rw [h]
  · have hwait : Inv { s with st := .settling, done := s.done } :=
      hi.stopped .settling s.done rfl (fun h => absurd rfl h) (fun _ => hc) (fun h => by simp [hd] at h)
    exact hwait.withSettle (fun h => absurd rfl h) (settleTicks_le _ _ _)
  · exact (hi.withSettle (fun _ => rfl) (Nat.zero_le _)).ends rfl

/-! The environment's moves. -/

/-- Reset keeps the parameters, and R41's values meet every other clause. -/
theorem inv_resetBlock {s : State} (h : s.cfg.admissible = true) : Inv (resetBlock s) where
  params := h
  receiving_connected := fun h => nomatch h
  receiving_mode := fun h => nomatch h
  settle_zero := fun _ => rfl
  done_idle := fun h => nomatch h
  elapsed_le := Nat.zero_le _
  frameBuf_le := Nat.zero_le _
  totalLen_le := Nat.zero_le _
  header_held := fun h => by simp at h
  length_read := fun h => nomatch h
  extracted := fun h => nomatch h
  expId_unicast := fun h => nomatch h
  rxq_cap := fun cap _ => Nat.zero_le cap
  closed_empty := fun _ => rfl
  settling_connected := fun h => nomatch h
  settle_range := Nat.zero_le _
  result_shape := rfl

/-- A tick stops at the deadline and at the end of the settle delay (R141). -/
theorem inv_tick {s : State} (hi : Inv s) : Inv (tick s) := by
  rcases tick_cases s with ⟨_, h⟩ | ⟨hst, _, h⟩ | ⟨_, _, h⟩ <;> rw [h]
  · exact { hi with elapsed_le := Nat.min_le_right _ _ }
  · exact hi.withSettle (fun h => absurd hst h) ((Nat.sub_le _ _).trans hi.settle_range)
  · exact hi

/-- A queue that shows the header holds both its bytes. -/
theorem two_le_length_of_header {xs : List Byte} (h : xs.take 2 = [Config.hdr0, Config.hdr1]) : 2 ≤ xs.length := by
  have hl := congrArg List.length h
  simp only [List.length_take, List.length_cons, List.length_nil] at hl
  omega

/-- A byte appended at the tail moves neither the header nor the length byte (R55, R147). -/
theorem inv_rxPush {s : State} (hi : Inv s) (b : Byte) : Inv (rxPush b s) := by
  rcases rxPush_cases b s with ⟨_, h⟩ | ⟨hc, hroom, h⟩ | ⟨_, _, h⟩ <;> rw [h]
  · exact hi
  · exact { hi with
      header_held := fun h => by
        have hh := hi.header_held h
        rw [List.take_append_of_le_length (two_le_length_of_header hh), hh]
      length_read := fun h => by
        obtain ⟨hl, ht⟩ := hi.length_read h
        rw [byteAt_append_left (Nat.lt_of_lt_of_le (by decide) hl)]
        exact ⟨hl.trans (by simp), ht⟩
      rxq_cap := fun cap hcap => by
        have hlt := (rxqHasRoom_iff s).mp hroom cap hcap
        simpa using hlt
      closed_empty := fun h => absurd (hc.symm.trans h) (by decide) }
  · exact hi.withUnconstrained s.txh true s.reqInstr

/-- An offered command keeps the invariant, accepted or not. -/
theorem inv_offerOther {s : State} (hi : Inv s) (c : HostCmd) : Inv (offerOther c s) := by
  have hshape := offerOther_wellShaped hi.result_shape c
  rcases offerOther_cases c s with ⟨_, _, h⟩ | ⟨hst, r, h⟩ | ⟨hst, _, h⟩ | ⟨hst, _, h⟩ | ⟨_, _, h⟩ |
    ⟨id, code, p, _, hst, hcheck, h⟩ | ⟨id, code, p, _, _, hst, hcheck, h⟩ | ⟨id, _, hst, hcheck, h⟩ <;>
    rw [h] at hshape ⊢
  · exact hi
  · exact (hi.withDone true fun _ => hst).withResult hshape
  · exact ((hi.opened.withUnconstrained s.txh false s.reqInstr).withDone true fun _ => hst).withResult hshape
  · exact ((hi.closed (.inl hst)).withDone true fun _ => hst).withResult hshape
  · have hfailed := (hi.withSettle (fun _ => rfl) (Nat.zero_le _)).stopped .failed false rfl (fun _ => rfl)
      (fun h => nomatch h) (by simp)
    exact hfailed.closed (.inr rfl)
  · obtain ⟨hid, _, _, hc⟩ := checkTransact_pass hcheck
    have he := hi.emptied (by simp [hst]) (by simp [hst])
    exact (he.withUnconstrained _ _ _).awaitsHeader hst hc (.inl rfl) hid
  · obtain ⟨_, _, _, hc⟩ := checkSend_pass hcheck
    have he := (hi.emptied (by simp [hst]) (by simp [hst])).withDone false (by simp)
    have hm := (he.withUnconstrained (s.txh ++ [.flush] ++ [.write (encodeFrame id code p)]) s.rxOverflow code).withMode
      (by rw [hst]; rfl) .send
    exact inv_finish (hm.withResult wellShaped_okay_broadcast) hc rfl
  · obtain ⟨hid, hc⟩ := checkReceive_pass hcheck
    exact hi.awaitsHeader hst hc (.inr rfl) hid

/-! The internal steps. -/

theorem receiving_of_awaiting {p : Phase} (h : p.awaiting = true) : p.receiving = true := by
  simp [Phase.receiving, h]

/-- The total length a `LEN` byte announces, as a number: nine bits hold it (R136). -/
theorem totalLength_toNat (len : Byte) : (totalLength len).toNat = len.toNat + Config.frameOverhead := by
  have h : len.toNat < 256 := len.isLt
  simp only [totalLength, Config.frameOverhead, BitVec.toNat_add, BitVec.truncate_eq_setWidth, BitVec.toNat_setWidth,
    BitVec.toNat_ofNat]
  omega

/-- A `LEN` byte announces no more than the largest frame (R27). -/
theorem totalLength_le_maxFrame (len : Byte) : (totalLength len).toNat ≤ Config.maxFrame := by
  have h : len.toNat < 256 := len.isLt
  simp only [totalLength_toNat, Config.frameOverhead, Config.maxFrame]
  omega

/-- The length byte is read without consuming it (R135). -/
theorem Inv.readsLength {s : State} (hi : Inv s) (hst : s.st = .awaitLength) (hl : 4 ≤ s.rxq.length) :
    Inv { s with totalLen := totalLength (byteAt s.rxq 3), st := .awaitPayload } := by
  have ht : Inv { s with totalLen := totalLength (byteAt s.rxq 3) } :=
    { hi with
      totalLen_le := totalLength_le_maxFrame _
      length_read := fun (h : s.st = .awaitPayload) => by simp [hst] at h }
  exact ht.receivesOn (by rw [hst]; rfl) rfl (fun _ => hi.header_held (.inl hst))
    (fun _ => ⟨hl, totalLength_toNat _⟩) (fun h => nomatch h)

/-- What is taken from a queue shows the queue's header and length byte, if it is long enough to hold them. -/
theorem header_length_of_take {xs : List Byte} {n : Nat} (hn : 4 ≤ n) :
    (xs.take n).take 2 = xs.take 2 ∧ byteAt (xs.take n) 3 = byteAt xs 3 := by
  constructor
  · rw [List.take_take, Nat.min_eq_left (by omega)]
  · simp [byteAt, List.getElem?_take_of_lt (show 3 < n by omega)]

/-- The bytes taken from the queue are headed and of the length they announce, because the queue was (R138, R147). -/
theorem Inv.extracts {s : State} (hi : Inv s) (hst : s.st = .awaitPayload) (hl : s.totalLen.toNat ≤ s.rxq.length) :
    Inv { s with
      rxq := s.rxq.drop s.totalLen.toNat, frameBuf := s.rxq.take s.totalLen.toNat, st := .complete } := by
  obtain ⟨_, htotal⟩ := hi.length_read hst
  have hfour : 4 ≤ s.totalLen.toNat := htotal ▸ Nat.le_add_left _ _
  have hlength : (s.rxq.take s.totalLen.toNat).length = s.totalLen.toNat := List.length_take_of_le hl
  obtain ⟨hhead, hbyte⟩ := header_length_of_take (xs := s.rxq) hfour
  have hf : Inv { s with frameBuf := s.rxq.take s.totalLen.toNat } :=
    { hi with
      frameBuf_le := hlength.trans_le hi.totalLen_le
      extracted := fun (h : s.st = .complete) => by simp [hst] at h }
  have hcomplete := hf.receivesOn (p := .complete) (by rw [hst]; rfl) rfl (fun h => by simp at h) (fun h => nomatch h)
    (fun _ => ⟨hfour.trans_eq hlength.symm, hhead.trans (hi.header_held (.inr hst)), by rw [hlength, hbyte, htotal]⟩)
  exact hcomplete.dropped (by simp) (by simp) _

/-- `COMPLETE` validates against a unicast id, so that its result is well shaped (R179, R237). -/
theorem Inv.completes {s : State} (hi : Inv s) (hst : s.st = .complete) :
    Inv (finish { s with result := validate s.frameBuf s.expId }) := by
  have hr : s.st.receiving = true := by rw [hst]; rfl
  have hv := hi.withResult (validate_wellShaped (hi.expId_unicast hr) s.frameBuf)
  exact inv_finish hv (hi.receiving_connected hr) (hi.done_false (by simp [hst]))

/-- `TIMED_OUT` empties the queue and concludes (R142). -/
theorem Inv.concludesTimeout {s : State} (hi : Inv s) (hst : s.st = .timedOut) :
    Inv (finish { s with rxq := [], txh := s.txh ++ [.flush], result := .failure .timeout s.expId .none }) := by
  have hr : s.st.receiving = true := by rw [hst]; rfl
  have he := (hi.emptied (by simp [hst]) (by simp [hst])).withUnconstrained (s.txh ++ [.flush]) s.rxOverflow s.reqInstr
  exact inv_finish (he.withResult (wellShaped_timeout s.expId)) (hi.receiving_connected hr)
    (hi.done_false (by simp [hst]))

/-- An internal step keeps the invariant, by the rule that gives it. -/
theorem inv_internalStep {s t : State} (hi : Inv s) (h : internalStep s = some t) : Inv t := by
  rcases internalStep_cases h with ⟨ha, _, rfl⟩ | ⟨hst, _, _, hq, rfl⟩ | ⟨hst, _, _, _, rfl⟩ | ⟨hst, _, hl, rfl⟩ |
    ⟨hst, _, hl, rfl⟩ | ⟨hst, rfl⟩ | ⟨hst, rfl⟩ | ⟨hst, rfl⟩ | ⟨_, hz, rfl⟩
  · exact hi.receivesOn (receiving_of_awaiting ha) rfl (fun h => by simp at h) (fun h => nomatch h) (fun h => nomatch h)
  · exact hi.receivesOn (by rw [hst]; rfl) rfl (fun _ => hq) (fun h => nomatch h) (fun h => nomatch h)
  · exact hi.dropped (by simp [hst]) (by simp [hst]) 1
  · exact hi.readsLength hst hl
  · exact hi.extracts hst hl
  · exact hi.completes hst
  · exact hi.concludesTimeout hst
  · exact (hi.withResult (wellShaped_connectionLost _)).ends (hi.settle_zero (by simp [hst]))
  · exact hi.ends hz

/-! Every step. -/

theorem inv_quietMove {s : State} (hi : Inv s) : Inv (quietMove s) := by
  rcases quietMove_cases s with h | ⟨_, h⟩
  · exact inv_internalStep hi h
  · rw [h]; exact inv_tick hi

theorem inv_internalMove {s : State} (hi : Inv s) : Inv (internalMove s) := by
  rcases internalMove_cases s with h | ⟨_, h⟩
  · exact inv_internalStep hi h
  · rw [h]; exact hi

theorem inv_afterMove {s : State} (hi : Inv s) (m : Move) : Inv (afterMove m s) := by
  cases m with
  | command c => exact inv_offerOther hi c
  | rx b => exact inv_rxPush hi b
  | tick => exact inv_tick hi
  | internal => exact inv_internalMove hi
  | reset => exact inv_resetBlock hi.params

theorem inv_afterStep {s : State} (hi : Inv s) : Inv (afterStep s) := by
  rcases afterStep_cases s with ⟨_, h⟩ | ⟨m, rest, _, h⟩ <;> rw [h]
  · exact inv_quietMove hi
  · exact inv_afterMove (inv_withMoves hi rest) m

/-- Settles O42: a step is one rule, after the first move is taken off the list, and each rule keeps the invariant. -/
theorem everyStepKeepsTheInvariant : Obligations.EveryStepKeepsTheInvariant := by
  intro s t hi hstep
  rw [eq_afterStep_of_step hstep]
  exact inv_afterStep hi

/-- The open parameters of the reset machine are admissible: both are one more than a natural number (R8). -/
theorem config_params_admissible : Config.params.admissible = true := by
  simp [Params.admissible, Config.params]

/-- Settles O41: `State.reset` is what a reset makes of itself. -/
theorem resetSatisfiesTheInvariant : Obligations.ResetSatisfiesTheInvariant :=
  inv_resetBlock (s := State.reset) config_params_admissible

end Sys2Proof.Machine
end

section
/-! PROOFS. What a step can do to the status flags `connected`, `rx_overflow` and `done` (R38, O53). -/

namespace Sys2Proof.Machine

theorem tick_flags (s : State) :
    (tick s).connected = s.connected ∧ (tick s).rxOverflow = s.rxOverflow ∧ (tick s).done = s.done := by
  rcases tick_cases s with ⟨_, h⟩ | ⟨_, _, h⟩ | ⟨_, _, h⟩ <;> simp [h]

/-- A producer move may set `rx_overflow`, and changes no other flag (R55). -/
theorem rxPush_flags (b : Byte) (s : State) :
    (rxPush b s).connected = s.connected ∧
    ((rxPush b s).rxOverflow = s.rxOverflow ∨ (rxPush b s).rxOverflow = true) ∧ (rxPush b s).done = s.done := by
  rcases rxPush_cases b s with ⟨_, h⟩ | ⟨_, _, h⟩ | ⟨_, _, h⟩ <;> simp [h]

/-- `Finish` sets `done` only where it reaches `IDLE` (R180). -/
theorem finish_done_cases (s : State) :
    (finish s).done = s.done ∨ ((finish s).done = true ∧ (finish s).st = .idle) := by
  rcases finish_done s with ⟨_, h⟩ | ⟨hst, h⟩
  · exact .inl h
  · exact .inr ⟨h, hst⟩

/-- Only CONNECT opens the transport and clears `rx_overflow`, only DISCONNECT closes it, and a command sets `done` only
where its acceptance ends it (R160, R161, R163 to R165, R180). -/
theorem offerOther_flags (c : HostCmd) (s : State) :
    ((offerOther c s).connected = s.connected ∨ (c = .connect ∧ (offerOther c s).connected = true) ∨
      (c = .disconnect ∧ (offerOther c s).connected = false)) ∧
    ((offerOther c s).rxOverflow = s.rxOverflow ∨ (c = .connect ∧ (offerOther c s).rxOverflow = false)) ∧
    ((offerOther c s).done = s.done ∨ (offerOther c s).done = false ∨
      ((offerOther c s).done = true ∧ (offerOther c s).st = .idle)) := by
  rcases offerOther_cases c s with ⟨_, _, h⟩ | ⟨hst, _, h⟩ | ⟨hst, hc, h⟩ | ⟨hst, hc, h⟩ | ⟨_, hc, h⟩ |
    ⟨_, _, _, _, _, _, h⟩ | ⟨_, _, _, _, _, _, _, h⟩ | ⟨_, _, _, _, h⟩ <;> rw [h]
  · exact ⟨.inl rfl, .inl rfl, .inl rfl⟩
  · exact ⟨.inl rfl, .inl rfl, .inr (.inr ⟨rfl, hst⟩)⟩
  · exact ⟨.inr (.inl ⟨hc, rfl⟩), .inr ⟨hc, rfl⟩, .inr (.inr ⟨rfl, hst⟩)⟩
  · exact ⟨.inr (.inr ⟨hc, rfl⟩), .inl rfl, .inr (.inr ⟨rfl, hst⟩)⟩
  · exact ⟨.inr (.inr ⟨hc, rfl⟩), .inl rfl, .inr (.inl rfl)⟩
  · exact ⟨.inl rfl, .inl rfl, .inr (.inl rfl)⟩
  · exact ⟨.inl (finish_connected _), .inl (finish_rxOverflow _), .inr (finish_done_cases _)⟩
  · exact ⟨.inl rfl, .inl rfl, .inr (.inl rfl)⟩

/-- An internal step leaves `connected` and `rx_overflow`, and sets `done` only where it posts a result (R166, R179, R180,
R182). -/
theorem internalStep_flags {s t : State} (h : internalStep s = some t) :
    t.connected = s.connected ∧ t.rxOverflow = s.rxOverflow ∧
    (t.done = s.done ∨ (t.done = true ∧ t.st = .idle ∧ s.st ∈ [.complete, .timedOut, .failed, .settling])) := by
  rcases internalStep_cases h with ⟨_, _, rfl⟩ | ⟨_, _, _, _, rfl⟩ | ⟨_, _, _, _, rfl⟩ | ⟨_, _, _, rfl⟩ |
    ⟨_, _, _, rfl⟩ | ⟨hst, rfl⟩ | ⟨hst, rfl⟩ | ⟨hst, rfl⟩ | ⟨hst, _, rfl⟩
  · exact ⟨rfl, rfl, .inl rfl⟩
  · exact ⟨rfl, rfl, .inl rfl⟩
  · exact ⟨rfl, rfl, .inl rfl⟩
  · exact ⟨rfl, rfl, .inl rfl⟩
  · exact ⟨rfl, rfl, .inl rfl⟩
  · exact ⟨finish_connected _, finish_rxOverflow _,
      (finish_done_cases _).imp_right fun ⟨hd, hidle⟩ => ⟨hd, hidle, by simp [hst]⟩⟩
  · exact ⟨finish_connected _, finish_rxOverflow _,
      (finish_done_cases _).imp_right fun ⟨hd, hidle⟩ => ⟨hd, hidle, by simp [hst]⟩⟩
  · exact ⟨rfl, rfl, .inr ⟨rfl, rfl, by simp [hst]⟩⟩
  · exact ⟨rfl, rfl, .inr ⟨rfl, rfl, by simp [hst]⟩⟩

theorem quietMove_flags (s : State) :
    (quietMove s).connected = s.connected ∧ (quietMove s).rxOverflow = s.rxOverflow ∧
    ((quietMove s).done = s.done ∨
      ((quietMove s).done = true ∧ (quietMove s).st = .idle ∧ s.st ∈ [.complete, .timedOut, .failed, .settling])) := by
  rcases quietMove_cases s with h | ⟨_, h⟩
  · exact internalStep_flags h
  · obtain ⟨hc, ho, hd⟩ := tick_flags s
    rw [h]
    exact ⟨hc, ho, .inl hd⟩

theorem internalMove_flags (s : State) :
    (internalMove s).connected = s.connected ∧ (internalMove s).rxOverflow = s.rxOverflow ∧
    ((internalMove s).done = s.done ∨
      ((internalMove s).done = true ∧ (internalMove s).st = .idle ∧
        s.st ∈ [.complete, .timedOut, .failed, .settling])) := by
  rcases internalMove_cases s with h | ⟨_, h⟩
  · exact internalStep_flags h
  · rw [h]
    exact ⟨rfl, rfl, .inl rfl⟩

/-- Everything a listed move can do to each flag: leave it, set it or clear it. -/
theorem afterMove_flags (m : Move) (s : State) :
    ((afterMove m s).connected = s.connected ∨
      ((afterMove m s).connected = true ∧ m = .command .connect) ∨
      ((afterMove m s).connected = false ∧ (m = .command .disconnect ∨ m = .reset))) ∧
    ((afterMove m s).rxOverflow = s.rxOverflow ∨
      ((afterMove m s).rxOverflow = true ∧ ∃ b, m = .rx b) ∨
      ((afterMove m s).rxOverflow = false ∧ (m = .command .connect ∨ m = .reset))) ∧
    ((afterMove m s).done = s.done ∨
      ((afterMove m s).done = true ∧ (afterMove m s).st = .idle ∧
        ((∃ c, m = .command c) ∨ (m = .internal ∧ s.st ∈ [.complete, .timedOut, .failed, .settling]))) ∨
      ((afterMove m s).done = false ∧ ((∃ c, m = .command c) ∨ m = .reset))) := by
  cases m with
  | command c =>
    obtain ⟨hc, ho, hd⟩ := offerOther_flags c s
    refine ⟨hc.imp_right (.imp (fun ⟨h, ht⟩ => ⟨ht, h ▸ rfl⟩) fun ⟨h, hf⟩ => ⟨hf, .inl (h ▸ rfl)⟩),
      ho.imp_right fun ⟨h, hf⟩ => .inr ⟨hf, .inl (h ▸ rfl)⟩, ?_⟩
    rcases hd with h | hf | ⟨ht, hst⟩
    · exact .inl h
    · exact .inr (.inr ⟨hf, .inl ⟨c, rfl⟩⟩)
    · exact .inr (.inl ⟨ht, hst, .inl ⟨c, rfl⟩⟩)
  | rx b =>
    obtain ⟨hc, ho, hd⟩ := rxPush_flags b s
    exact ⟨.inl hc, ho.imp_right fun h => .inl ⟨h, b, rfl⟩, .inl hd⟩
  | tick =>
    obtain ⟨hc, ho, hd⟩ := tick_flags s
    exact ⟨.inl hc, .inl ho, .inl hd⟩
  | internal =>
    obtain ⟨hc, ho, hd⟩ := internalMove_flags s
    exact ⟨.inl hc, .inl ho, hd.imp_right fun ⟨ht, hidle, hst⟩ => .inl ⟨ht, hidle, .inr ⟨rfl, hst⟩⟩⟩
  | reset => exact ⟨.inr (.inr ⟨rfl, .inr rfl⟩), .inr (.inr ⟨rfl, .inr rfl⟩), .inr (.inr ⟨rfl, .inr rfl⟩)⟩

/-- A flag that may be left, set under `S` or cleared under `C` was set before or `S` holds, and was clear before or `C`
holds. -/
theorem flag_clauses {old new : Bool} {S C : Prop} (h : new = old ∨ (new = true ∧ S) ∨ (new = false ∧ C)) :
    (new = true → old = true ∨ S) ∧ (new = false → old = false ∨ C) := by
  rcases h with rfl | ⟨rfl, hs⟩ | ⟨rfl, hc⟩
  · exact ⟨.inl, .inl⟩
  · exact ⟨fun _ => .inr hs, (nomatch ·)⟩
  · exact ⟨(nomatch ·), fun _ => .inr hc⟩

/-- Settles O53: a listed move changes a flag only as `afterMove_flags` says, and a step with none listed changes `done`
only, by an internal step that posts. -/
theorem statusFlagsChangeOnlyAsListed : Obligations.StatusFlagsChangeOnlyAsListed := by
  intro s t hstep
  rw [eq_afterStep_of_step hstep]
  rcases afterStep_cases s with ⟨hnil, h⟩ | ⟨m, rest, hcons, h⟩ <;> rw [h]
  · obtain ⟨hc, ho, hd⟩ := quietMove_flags s
    obtain ⟨hdSet, hdClear⟩ := flag_clauses (C := False) (hd.imp_right .inl)
    refine ⟨fun ht => .inl (hc ▸ ht), fun hf => .inl (hc ▸ hf), fun ht => .inl (ho ▸ ht), fun hf => .inl (ho ▸ hf),
      fun hf => .inl ((hdClear hf).resolve_right id), fun ht => (hdSet ht).imp_right ?_⟩
    exact fun ⟨hidle, hst⟩ => ⟨hidle, .inr ⟨.inl hnil, hst⟩⟩
  · obtain ⟨hc, ho, hd⟩ := afterMove_flags m { s with moves := rest }
    obtain ⟨hcSet, hcClear⟩ := flag_clauses hc
    obtain ⟨hoSet, hoClear⟩ := flag_clauses ho
    obtain ⟨hdSet, hdClear⟩ := flag_clauses hd
    simp only [hcons, List.head?_cons, Option.some.injEq]
    refine ⟨hcSet, hcClear, hoSet, hoClear, hdClear, ?_⟩
    simpa using hdSet

end Sys2Proof.Machine
end

section
/-! PROOFS. The moves the block does not enable, and the two streams over a step: the inbound queue and the outbound history
(R55, R65, R66; O23, O24, O50, O52). -/

namespace Sys2Proof.Machine

/-! The producer's step, and the states in which the block is blocked. -/

/-- At a full queue there is no room (R55). -/
theorem rxqHasRoom_false_of_full {s : State} (h : ∃ cap, s.cfg.rxqCap = some cap ∧ cap ≤ s.rxq.length) :
    rxqHasRoom s = false := by
  obtain ⟨cap, hcap, hfull⟩ := h
  exact Bool.eq_false_iff.mpr fun hroom => absurd ((rxqHasRoom_iff s).mp hroom cap hcap) (Nat.not_lt.mpr hfull)

theorem rxPush_room {b : Byte} {s : State} (hc : s.connected = true) (hroom : rxqHasRoom s = true) :
    rxPush b s = { s with rxq := s.rxq ++ [b] } := by
  simp [rxPush, hc, hroom]

theorem rxPush_full {b : Byte} {s : State} (hc : s.connected = true) (hroom : rxqHasRoom s = false) :
    rxPush b s = { s with rxOverflow := true } := by
  simp [rxPush, hc, hroom]

theorem rxPush_closed {b : Byte} {s : State} (hc : s.connected = false) : rxPush b s = s := by
  simp [rxPush, hc]

/-- Settles O23: the move is `rxPush`, which appends where the queue has room and drops the byte where it has none. -/
theorem producerAppendsOneByte : Obligations.ProducerAppendsOneByte := by
  intro s rest b hmoves hc
  rw [step_move hmoves]
  constructor
  · intro hroom
    exact congrArg _ (rxPush_room hc ((rxqHasRoom_iff s).mpr hroom))
  · intro hfull
    exact congrArg _ (rxPush_full hc (rxqHasRoom_false_of_full (s := s) hfull))

/-- A blocked block does not move (R14). -/
theorem internalMove_blocked {s : State} (h : internalStep s = none) : internalMove s = s := by
  simp [internalMove, h]

/-- Blocked or not does not depend on the coming moves. -/
theorem internalStep_withMoves_eq_none {s : State} {ms : List Move} (h : internalStep s = none) :
    internalStep { s with moves := ms } = none := by
  rw [internalStep_moves, h, Option.map_none]

/-- An awaiting state is blocked when its deadline has not passed and its own progress is (R131). -/
theorem awaitStep_eq_none_iff {f : State → Option State} {s : State} :
    awaitStep f s = none ↔ s.elapsed < s.cfg.timeoutTicks ∧ f s = none := by
  rcases Nat.lt_or_ge s.elapsed s.cfg.timeoutTicks with h | h
  · simp [awaitStep_early h, h]
  · simp [awaitStep_late h, Nat.not_lt.mpr h]

theorem headerStep_eq_none_iff {s : State} : headerStep s = none ↔ s.rxq.length < 2 := by
  unfold headerStep
  split_ifs with hl hp
  · exact iff_of_false not_false (Nat.not_lt.mpr hl)
  · exact iff_of_false not_false (Nat.not_lt.mpr hl)
  · exact iff_of_true rfl (Nat.not_le.mp hl)

theorem lengthStep_eq_none_iff {s : State} : lengthStep s = none ↔ s.rxq.length < 4 := by
  simp [lengthStep]

theorem payloadStep_eq_none_iff {s : State} : payloadStep s = none ↔ s.rxq.length < s.totalLen.toNat := by
  simp [payloadStep]

theorem settlingStep_eq_none_iff {s : State} : settlingStep s = none ↔ 0 < s.settle := by
  simp [settlingStep, Nat.pos_iff_ne_zero]

/-- The blocked states: `IDLE`, a settle delay in progress, and an awaiting state before its deadline without the bytes it
waits for (R134, R137, R139, R182). -/
theorem internalStep_eq_none_iff (s : State) :
    internalStep s = none ↔
      s.st = .idle ∨ (s.st = .settling ∧ 0 < s.settle) ∨
      (s.elapsed < s.cfg.timeoutTicks ∧
        ((s.st = .awaitHeader ∧ s.rxq.length < 2) ∨ (s.st = .awaitLength ∧ s.rxq.length < 4) ∨
          (s.st = .awaitPayload ∧ s.rxq.length < s.totalLen.toNat))) := by
  cases hst : s.st with
  | idle => simp [internalStep_idle hst]
  | awaitHeader => simp [internalStep_awaitHeader hst, awaitStep_eq_none_iff, headerStep_eq_none_iff]
  | awaitLength => simp [internalStep_awaitLength hst, awaitStep_eq_none_iff, lengthStep_eq_none_iff]
  | awaitPayload => simp [internalStep_awaitPayload hst, awaitStep_eq_none_iff, payloadStep_eq_none_iff]
  | complete => simp [internalStep_complete hst]
  | timedOut => simp [internalStep_timedOut hst]
  | failed => simp [internalStep_failed hst]
  | settling => simp [internalStep_settling hst, settlingStep_eq_none_iff]

/-- Settles O24: a closed transport delivers nothing, a blocked block stays, and `internalStep_eq_none_iff` lists the blocked
states. -/
theorem movesNotEnabledChangeNothing : Obligations.MovesNotEnabledChangeNothing := by
  intro s rest
  refine ⟨fun b hmoves hclosed => ?_, fun hmoves hblocked => ?_, internalStep_eq_none_iff s⟩
  · rw [step_move hmoves]
    exact congrArg _ (rxPush_closed hclosed)
  · rw [step_move hmoves]
    exact congrArg _ (internalMove_blocked (internalStep_withMoves_eq_none hblocked))

/-! The two streams. -/

/-- An emptied queue has lost all its bytes at the head. -/
theorem nil_eq_drop (q : List Byte) : ∃ n, [] = q.drop n := ⟨q.length, List.drop_length.symm⟩

/-- The outbound history is left, or only a Flush is recorded: nothing is transmitted. -/
def SendsNothing (s t : State) : Prop := t.txh = s.txh ∨ t.txh = s.txh ++ [.flush]

theorem SendsNothing.writes_eq {s t : State} (h : SendsNothing s t) : writes t.txh = writes s.txh := by
  rcases h with h | h <;> simp [h, writes]

theorem SendsNothing.history_grows {s t : State} (h : SendsNothing s t) : s.txh <+: t.txh := by
  rcases h with h | h
  · exact h ▸ List.prefix_rfl
  · exact h ▸ List.prefix_append _ _

/-- The command is a TRANSACT or SEND that an idle block with an open transport takes: its operands pass every check of
R162. -/
def AcceptsRequest (s : State) (c : HostCmd) (id code : Byte) (p : List Byte) : Prop :=
  s.st = .idle ∧ s.connected = true ∧ p.length ≤ 253 ∧
    ((c = .transact id code p ∧ id.toNat ≤ 253 ∧ code ∈ unicastCodes) ∨
      (c = .send id code p ∧ id = 0xFE ∧ code ∈ groupCodes))

theorem tick_streams (s : State) : (tick s).rxq = s.rxq ∧ (tick s).txh = s.txh := by
  rcases tick_cases s with ⟨_, h⟩ | ⟨_, _, h⟩ | ⟨_, _, h⟩ <;> simp [h]

/-- A producer move appends its byte or leaves the queue, and is not recorded (R55). -/
theorem rxPush_streams (b : Byte) (s : State) :
    ((rxPush b s).rxq = s.rxq ++ [b] ∨ (rxPush b s).rxq = s.rxq) ∧ (rxPush b s).txh = s.txh := by
  rcases rxPush_cases b s with ⟨_, h⟩ | ⟨_, _, h⟩ | ⟨_, _, h⟩ <;> simp [h]

/-- An internal step consumes from the head of the queue and transmits nothing (R133, R138, R142). -/
theorem internalStep_streams {s t : State} (h : internalStep s = some t) :
    (∃ n, t.rxq = s.rxq.drop n) ∧ SendsNothing s t := by
  rcases internalStep_cases h with ⟨_, _, rfl⟩ | ⟨_, _, _, _, rfl⟩ | ⟨_, _, _, _, rfl⟩ | ⟨_, _, _, rfl⟩ |
    ⟨_, _, _, rfl⟩ | ⟨_, rfl⟩ | ⟨_, rfl⟩ | ⟨_, rfl⟩ | ⟨_, _, rfl⟩
  · exact ⟨⟨0, rfl⟩, .inl rfl⟩
  · exact ⟨⟨0, rfl⟩, .inl rfl⟩
  · exact ⟨⟨1, rfl⟩, .inl rfl⟩
  · exact ⟨⟨0, rfl⟩, .inl rfl⟩
  · exact ⟨⟨s.totalLen.toNat, rfl⟩, .inl rfl⟩
  · exact ⟨⟨0, finish_rxq _⟩, .inl (finish_txh _)⟩
  · exact ⟨by simpa using nil_eq_drop s.rxq, .inr (finish_txh _)⟩
  · exact ⟨⟨0, rfl⟩, .inl rfl⟩
  · exact ⟨⟨0, rfl⟩, .inl rfl⟩

theorem quietMove_streams (s : State) :
    (∃ n, (quietMove s).rxq = s.rxq.drop n) ∧ SendsNothing s (quietMove s) := by
  rcases quietMove_cases s with h | ⟨_, h⟩
  · exact internalStep_streams h
  · obtain ⟨hq, ht⟩ := tick_streams s
    rw [h]
    exact ⟨⟨0, hq⟩, .inl ht⟩

theorem internalMove_streams (s : State) :
    (∃ n, (internalMove s).rxq = s.rxq.drop n) ∧ SendsNothing s (internalMove s) := by
  rcases internalMove_cases s with h | ⟨_, h⟩
  · exact internalStep_streams h
  · rw [h]
    exact ⟨⟨0, rfl⟩, .inl rfl⟩

/-- An offered command leaves the queue or empties it, and transmits only where it is an accepted TRANSACT or SEND, whose own
frame it encodes (R167, R170). -/
theorem offerOther_streams (c : HostCmd) (s : State) :
    (∃ n, (offerOther c s).rxq = s.rxq.drop n) ∧
    (SendsNothing s (offerOther c s) ∨ ∃ id code p, AcceptsRequest s c id code p ∧
      (offerOther c s).txh = s.txh ++ [.flush] ++ [.write (encodeFrame id code p)]) := by
  rcases offerOther_cases c s with ⟨_, _, h⟩ | ⟨_, _, h⟩ | ⟨_, _, h⟩ | ⟨_, _, h⟩ | ⟨_, _, h⟩ |
    ⟨id, code, p, hc, hst, hcheck, h⟩ | ⟨id, code, p, hc, hid, hst, hcheck, h⟩ | ⟨_, _, _, _, h⟩ <;> rw [h]
  · exact ⟨⟨0, rfl⟩, .inl (.inl rfl)⟩
  · exact ⟨⟨0, rfl⟩, .inl (.inl rfl)⟩
  · exact ⟨⟨0, rfl⟩, .inl (.inl rfl)⟩
  · exact ⟨nil_eq_drop _, .inl (.inl rfl)⟩
  · exact ⟨nil_eq_drop _, .inl (.inl rfl)⟩
  · obtain ⟨hid, hcode, hp, hopen⟩ := checkTransact_pass hcheck
    exact ⟨nil_eq_drop _, .inr ⟨id, code, p, ⟨hst, hopen, hp, .inl ⟨hc, hid, hcode⟩⟩, rfl⟩⟩
  · obtain ⟨_, hcode, hp, hopen⟩ := checkSend_pass hcheck
    exact ⟨by simpa using nil_eq_drop s.rxq,
      .inr ⟨id, code, p, ⟨hst, hopen, hp, .inr ⟨hc, hid, hcode⟩⟩, finish_txh _⟩⟩
  · exact ⟨⟨0, rfl⟩, .inl (.inl rfl)⟩

/-- Everything a listed move can do to the inbound queue (R65). -/
theorem afterMove_rxq (m : Move) (s : State) :
    (∃ b, m = .rx b ∧ (afterMove m s).rxq = s.rxq ++ [b]) ∨ ∃ n, (afterMove m s).rxq = s.rxq.drop n := by
  cases m with
  | command c => exact .inr (offerOther_streams c s).1
  | rx b => exact (rxPush_streams b s).1.imp (fun h => ⟨b, rfl, h⟩) fun h => ⟨0, h⟩
  | tick => exact .inr ⟨0, (tick_streams s).1⟩
  | internal => exact .inr (internalMove_streams s).1
  | reset => exact .inr (nil_eq_drop _)

/-- Everything a listed move can do to the outbound history (R34, R41, R66). -/
theorem afterMove_txh (m : Move) (s : State) :
    SendsNothing s (afterMove m s) ∨ (m = .reset ∧ (afterMove m s).txh = []) ∨
    ∃ c id code p, m = .command c ∧ AcceptsRequest s c id code p ∧
      (afterMove m s).txh = s.txh ++ [.flush] ++ [.write (encodeFrame id code p)] := by
  cases m with
  | command c => exact (offerOther_streams c s).2.imp_right fun ⟨id, code, p, h⟩ => .inr ⟨c, id, code, p, rfl, h⟩
  | rx b => exact .inl (.inl (rxPush_streams b s).2)
  | tick => exact .inl (.inl (tick_streams s).2)
  | internal => exact .inl (internalMove_streams s).2
  | reset => exact .inr (.inl ⟨rfl, rfl⟩)

/-- Everything a step can do to the inbound queue (R65). -/
theorem afterStep_rxq (s : State) :
    (∃ b, s.moves.head? = some (.rx b) ∧ (afterStep s).rxq = s.rxq ++ [b]) ∨
    ∃ n, (afterStep s).rxq = s.rxq.drop n := by
  rcases afterStep_cases s with ⟨_, h⟩ | ⟨m, rest, hcons, h⟩ <;> rw [h]
  · exact .inr (quietMove_streams s).1
  · simpa [hcons] using afterMove_rxq m { s with moves := rest }

/-- Everything a step can do to the outbound history (R34, R41, R66). -/
theorem afterStep_txh (s : State) :
    SendsNothing s (afterStep s) ∨ (s.moves.head? = some .reset ∧ (afterStep s).txh = []) ∨
    ∃ c id code p, s.moves.head? = some (.command c) ∧ AcceptsRequest s c id code p ∧
      (afterStep s).txh = s.txh ++ [.flush] ++ [.write (encodeFrame id code p)] := by
  rcases afterStep_cases s with ⟨_, h⟩ | ⟨m, rest, hcons, h⟩ <;> rw [h]
  · exact .inl (quietMove_streams s).2
  · simp only [hcons, List.head?_cons, Option.some.injEq]
    exact afterMove_txh m { s with moves := rest }

/-- Settles O50: of the three things a step can do to the history, only an accepted request records a Write. -/
theorem onlyAcceptedRequestsTransmit : Obligations.OnlyAcceptedRequestsTransmit := by
  intro s t hstep
  rw [eq_afterStep_of_step hstep]
  rcases afterStep_txh s with hnone | ⟨hreset, hnil⟩ | ⟨c, id, code, p, hhead, hacc, htxh⟩
  · exact .inl hnone.writes_eq
  · exact .inr (.inl ⟨hnil, hreset⟩)
  · obtain ⟨hst, hopen, hp, hc⟩ := hacc
    have hwrites : writes (afterStep s).txh = writes s.txh ++ [encodeFrame id code p] := by simp [htxh, writes]
    refine .inr (.inr ⟨hst, hopen, id, code, p, ?_, hp, hwrites⟩)
    exact hc.imp (fun ⟨he, hops⟩ => ⟨he ▸ hhead, hops⟩) fun ⟨he, hops⟩ => ⟨he ▸ hhead, hops⟩

/-- Settles O52: the queue is `afterStep_rxq`, and every change of the history but a reset's appends at its end. -/
theorem inboundQueueIsFirstInFirstOut : Obligations.InboundQueueIsFirstInFirstOut := by
  intro s t hstep
  rw [eq_afterStep_of_step hstep]
  refine ⟨afterStep_rxq s, ?_⟩
  rcases afterStep_txh s with hnone | ⟨hreset, _⟩ | ⟨_, _, _, _, _, _, htxh⟩
  · exact .inl hnone.history_grows
  · exact .inr hreset
  · rw [htxh, List.append_assoc]
    exact .inl (List.prefix_append _ _)

end Sys2Proof.Machine
end

section
/-! PROOFS. `Encode` and `Decode` of a frame are inverse to each other, and so are the encoder and the decoder of requests;
the codes that name an instruction (R70 to R80, R113; O7, O8, O9). -/

namespace Sys2Proof

/-- `Decode` splits the frame `Encode` builds into what went in (R113). -/
theorem decodeFrame_encodeFrame (id x : Byte) {p : List Byte} (hp : p.length ≤ Config.maxParams) :
    decodeFrame (encodeFrame id x p) = .frame
      { id := id, length := lenByte p.length, err := x, params := p, checksum := checksum (frameBody id x p) } := by
  have hlen : (lenByte p.length).toNat = p.length + 2 := lenByte_toNat hp
  simp [decodeFrame, hlen, Config.minFrame, Config.frameOverhead]

/-- Between the two header bytes and the last byte stands the part the checksum covers (R70, R104). -/
theorem frame_eq_header_body_last {b : List Byte} (h : 6 ≤ b.length) :
    b = [byteAt b 0, byteAt b 1] ++ slice b 2 (b.length - 2) ++ [byteAt b (b.length - 1)] := by
  match b, h with
  | h0 :: h1 :: y :: ys, _ =>
    have hne : y :: ys ≠ [] := List.cons_ne_nil y ys
    have hbody : slice (h0 :: h1 :: y :: ys) 2 ((h0 :: h1 :: y :: ys).length - 2) = (y :: ys).dropLast := by
      simp [slice, List.dropLast_eq_take]
    have hlast : byteAt (h0 :: h1 :: y :: ys) ((h0 :: h1 :: y :: ys).length - 1) = (y :: ys).getLast hne := by
      simp [byteAt, List.getLast_eq_getElem]
    rw [hbody, hlast, List.append_assoc, List.dropLast_append_getLast]
    rfl

/-- That part is the id, the length byte, the code and the parameters (R76). -/
theorem slice_body_eq {b : List Byte} (h : 6 ≤ b.length) :
    slice b 2 (b.length - 2) = [byteAt b 2, byteAt b 3, byteAt b 4] ++ slice b 5 (b.length - 2) := by
  match b, h with
  | h0 :: h1 :: id :: len :: x :: y :: ys, _ => simp [slice]

theorem slice_params_length {b : List Byte} (h : 6 ≤ b.length) :
    (slice b 5 (b.length - 2)).length + 6 = b.length := by
  simp only [slice, List.length_take, List.length_drop]
  omega

/-- A length byte that passes R107's check is the one `Encode` writes, and R72 bounds the parameters by it. -/
theorem lenByte_of_frame_length {len : Byte} {n : Nat} (h : n + 6 = len.toNat + 4) :
    n ≤ Config.maxParams ∧ len = lenByte n := by
  have hlt : len.toNat < 256 := len.isLt
  refine ⟨show n ≤ 253 by omega, BitVec.eq_of_toNat_eq ?_⟩
  simp only [lenByte, Config.lenOverhead, BitVec.toNat_ofNat]
  omega

/-- `Decode` accepts no other bytes than `Encode` builds (the converse of R113). -/
theorem eq_encodeFrame_of_decodeFrame {b : List Byte} {f : Frame} (h : decodeFrame b = .frame f) :
    f.params.length ≤ Config.maxParams ∧ b = encodeFrame f.id f.err f.params := by
  rcases decodeFrame_cases b with ⟨hb, _⟩ | ⟨hb, _⟩ | ⟨hb, _⟩ | ⟨hb, _⟩ | ⟨hb, hsize, hhdr0, hhdr1, hlength, hsum⟩ <;>
    rw [hb] at h <;> cases h
  obtain ⟨hp, hlen⟩ := lenByte_of_frame_length ((slice_params_length hsize).trans hlength)
  have hbody : frameBody (byteAt b 2) (byteAt b 4) (slice b 5 (b.length - 2)) = slice b 2 (b.length - 2) := by
    rw [frameBody, ← hlen, slice_body_eq hsize]
  refine ⟨hp, ?_⟩
  calc b
      = [byteAt b 0, byteAt b 1] ++ slice b 2 (b.length - 2) ++ [byteAt b (b.length - 1)] :=
        frame_eq_header_body_last hsize
    _ = encodeFrame (byteAt b 2) (byteAt b 4) (slice b 5 (b.length - 2)) := by
        rw [hhdr0, hhdr1, hsum, encodeFrame, hbody]; rfl

/-- An instruction is well-formed when its id is a legal target and its parameters fit in one frame (R51, R72). -/
theorem wellFormed_iff {i : Instr} :
    i.wellFormed = true ↔ i.idOk = true ∧ i.params.length ≤ Config.maxParams := by
  simp [Instr.wellFormed, paramCountOk]

/-- R80: a code names no instruction when no row of R79's table has it. -/
theorem instrOf_eq_none_iff {code id : Byte} {p : List Byte} :
    instrOf code id p = none ↔
      code ∉ ([0x01, 0x02, 0x03, 0x04, 0x05, 0x06, 0x08, 0x82, 0x83] : List Byte) := by
  have hmask : code &&& 255#8 = code := BitVec.and_allOnes
  simp [instrOf, opcodeTable, hmask]

/-- Settles O7: the frame passes every check of `Decode`, and the opcode table finds the instruction from its own code. -/
theorem decodeInvertsEncode : Obligations.DecodeInvertsEncode := by
  intro i hwf
  obtain ⟨hid, hp⟩ := wellFormed_iff.mp hwf
  exact decode_eq_ok_iff.mpr ⟨_, decodeFrame_encodeFrame i.id (opcode i) hp, instrOf_opcode i, hid⟩

/-- Settles O8: an accepted frame is `Encode` of its fields, and the found row says they are the instruction's. -/
theorem decodedRequestsAreEncodings : Obligations.DecodedRequestsAreEncodings := by
  intro b i hdecode
  obtain ⟨f, hf, hi, hid⟩ := decode_eq_ok_iff.mp hdecode
  obtain ⟨hp, hb⟩ := eq_encodeFrame_of_decodeFrame hf
  obtain ⟨hcode, hiid, hparams⟩ := instrOf_eq_some hi
  rw [← hparams] at hp
  refine ⟨wellFormed_iff.mpr ⟨hid, hp⟩, ?_⟩
  rw [encode, hcode, hiid, hparams, hb]

/-- Settles O9: the codes without a row, and what a found row says. -/
theorem onlyNineCodesNameInstructions : Obligations.OnlyNineCodesNameInstructions :=
  fun _ _ _ => ⟨instrOf_eq_none_iff, fun _ => instrOf_eq_some⟩

end Sys2Proof
end

section
/-! PROOFS. The codec's own laws (40_codec.md): the checksum, the frame `Encode` builds, `Decode` clause by clause, what
it accepts, every single byte change, and the conditions of the error byte (R100 to R114; O1 to O6). -/

namespace Sys2Proof

/-! The checksum and the byte sum (R100). -/

theorem checksum_toNat (body : List Byte) : (checksum body).toNat = 0xFF - byteSum body % 256 := by
  rw [checksum, BitVec.toNat_ofNat]
  omega

theorem checksum_eq_not (body : List Byte) : checksum body = ~~~(BitVec.ofNat 8 (byteSum body)) := by
  apply BitVec.eq_of_toNat_eq
  rw [checksum_toNat, BitVec.toNat_not, BitVec.toNat_ofNat]

/-- A byte is the checksum of a body exactly when it fills the body's sum up to `0xFF` modulo 256. -/
theorem eq_checksum_iff {c : Byte} {body : List Byte} :
    c = checksum body ↔ (byteSum body + c.toNat) % 256 = 0xFF := by
  have hc : c.toNat < 256 := c.isLt
  rw [← BitVec.toNat_inj, checksum_toNat]
  omega

theorem byteSum_cons (a : Byte) (xs : List Byte) : byteSum (a :: xs) = a.toNat + byteSum xs := rfl

theorem byteSum_append (xs ys : List Byte) : byteSum (xs ++ ys) = byteSum xs + byteSum ys := by
  simp [byteSum]

/-- Replacing one byte moves the sum by the difference of the two bytes. -/
theorem byteSum_set_add {xs : List Byte} {i : Nat} (v : Byte) (h : i < xs.length) :
    byteSum (xs.set i v) + (byteAt xs i).toNat = byteSum xs + v.toNat := by
  induction xs generalizing i with
  | nil => cases h
  | cons a xs ih =>
    cases i with
    | zero => simp only [List.set_cons_zero, byteSum_cons, byteAt_cons_zero]; omega
    | succ i =>
      have hi := ih (Nat.lt_of_succ_lt_succ h)
      simp only [List.set_cons_succ, byteSum_cons, byteAt_cons_succ]
      omega

/-- Replacing one byte by another value changes the sum modulo 256. -/
theorem byteSum_set_mod_ne {xs : List Byte} {i : Nat} {v : Byte} (h : i < xs.length) (hv : v ≠ byteAt xs i) :
    byteSum (xs.set i v) % 256 ≠ byteSum xs % 256 := by
  have hsum := byteSum_set_add v h
  have hne : v.toNat ≠ (byteAt xs i).toNat := fun he => hv (BitVec.eq_of_toNat_eq he)
  have hv256 : v.toNat < 256 := v.isLt
  have ho256 : (byteAt xs i).toNat < 256 := (byteAt xs i).isLt
  omega

theorem byteAt_set_self {xs : List Byte} {i : Nat} (v : Byte) (h : i < xs.length) : byteAt (xs.set i v) i = v := by
  simp [byteAt, h]

theorem byteAt_set_ne {xs : List Byte} {i j : Nat} (v : Byte) (h : i ≠ j) : byteAt (xs.set i v) j = byteAt xs j := by
  simp [byteAt, h]

/-- Settles O1: `0xFF` minus a byte's value is the byte's complement. -/
theorem checksumComplementsByteSum : Obligations.ChecksumComplementsByteSum :=
  fun body => ⟨checksum_toNat body, checksum_eq_not body⟩

/-- Settles O2: the order of the bytes is `Encode`'s definition, and `n + 2` fits in the length byte up to 253. -/
theorem encodeBuildsTheFrame : Obligations.EncodeBuildsTheFrame :=
  fun id x p hp => ⟨rfl, encodeFrame_length id x p, lenByte_toNat hp⟩

/-! `Decode`, one equation for each check that decides (R104 to R109). -/

section
variable {b : List Byte}

theorem decodeFrame_short (h : b.length < 6) : decodeFrame b = .invalidResponse .short := if_pos h

theorem decodeFrame_header (hsize : 6 ≤ b.length) (h : byteAt b 0 ≠ 0xFF ∨ byteAt b 1 ≠ 0xFF) :
    decodeFrame b = .invalidResponse .header :=
  (if_neg hsize.not_gt).trans (if_pos h)

/-- Two header bytes of `0xFF` pass R106's check. -/
theorem not_badHeader (h0 : byteAt b 0 = 0xFF) (h1 : byteAt b 1 = 0xFF) :
    ¬(byteAt b 0 ≠ Config.hdr0 ∨ byteAt b 1 ≠ Config.hdr1) :=
  not_or.mpr ⟨not_not.mpr h0, not_not.mpr h1⟩

theorem decodeFrame_length (hsize : 6 ≤ b.length) (h0 : byteAt b 0 = 0xFF) (h1 : byteAt b 1 = 0xFF)
    (hlen : b.length ≠ (byteAt b 3).toNat + 4) : decodeFrame b = .invalidResponse .length :=
  (if_neg hsize.not_gt).trans ((if_neg (not_badHeader h0 h1)).trans (if_pos hlen))

theorem decodeFrame_checksumError (hsize : 6 ≤ b.length) (h0 : byteAt b 0 = 0xFF) (h1 : byteAt b 1 = 0xFF)
    (hlen : b.length = (byteAt b 3).toNat + 4)
    (hsum : byteAt b (b.length - 1) ≠ checksum (slice b 2 (b.length - 2))) :
    decodeFrame b = .checksumError (byteAt b 2) :=
  (if_neg hsize.not_gt).trans ((if_neg (not_badHeader h0 h1)).trans
    ((if_neg (not_not.mpr hlen)).trans (if_pos hsum)))

theorem decodeFrame_frame (hsize : 6 ≤ b.length) (h0 : byteAt b 0 = 0xFF) (h1 : byteAt b 1 = 0xFF)
    (hlen : b.length = (byteAt b 3).toNat + 4)
    (hsum : byteAt b (b.length - 1) = checksum (slice b 2 (b.length - 2))) :
    decodeFrame b = .frame
      { id := byteAt b 2, length := byteAt b 3, err := byteAt b 4, params := slice b 5 (b.length - 2),
        checksum := byteAt b (b.length - 1) } :=
  (if_neg hsize.not_gt).trans ((if_neg (not_badHeader h0 h1)).trans
    ((if_neg (not_not.mpr hlen)).trans (if_neg (not_not.mpr hsum))))

/-- R108's check in one sum: the bytes after the header, the checksum among them, add up to `0xFF` modulo 256. -/
theorem checksum_holds_iff (hsize : 6 ≤ b.length) :
    byteAt b (b.length - 1) = checksum (slice b 2 (b.length - 2)) ↔ byteSum (b.drop 2) % 256 = 0xFF := by
  have hdrop : b.drop 2 = slice b 2 (b.length - 2) ++ [byteAt b (b.length - 1)] :=
    congrArg (List.drop 2) (frame_eq_header_body_last hsize)
  rw [eq_checksum_iff, hdrop, byteSum_append]
  rfl

end

/-- Settles O3: one equation of `Decode` for each of R104's checks. -/
theorem decodeChecksInOrder : Obligations.DecodeChecksInOrder :=
  fun _ => ⟨decodeFrame_short, decodeFrame_header, decodeFrame_length, decodeFrame_checksumError, decodeFrame_frame⟩

/-- Settles O4: an accepted frame is `Encode` of its fields, and `Decode` of that encoding gives the computed length and
checksum. -/
theorem decodeAcceptsExactlyEncodedFrames : Obligations.DecodeAcceptsExactlyEncodedFrames := by
  intro b f
  constructor
  · intro hf
    obtain ⟨hp, hb⟩ := eq_encodeFrame_of_decodeFrame hf
    have hfields : f = ⟨f.id, lenByte f.params.length, f.err, f.params, checksum (frameBody f.id f.err f.params)⟩ :=
      FrameOutcome.frame.inj (hf.symm.trans (hb ▸ decodeFrame_encodeFrame f.id f.err hp))
    have hlen : f.length = lenByte f.params.length := congrArg Frame.length hfields
    refine ⟨hb, hp, hlen, ?_⟩
    rw [hlen]
    exact congrArg Frame.checksum hfields
  · rintro ⟨hb, hp, hlen, hsum⟩
    have hlen' : lenByte f.params.length = f.length := hlen.symm
    have hsum' : checksum (frameBody f.id f.err f.params) = f.checksum := by rw [hsum, ← hlen']; rfl
    rw [hb, decodeFrame_encodeFrame f.id f.err hp, hlen', hsum']

/-! A single changed byte of an encoded frame (R114). -/

/-- The bytes of an encoded frame after its header add up to `0xFF` modulo 256. -/
theorem byteSum_drop_encodeFrame (id x : Byte) (p : List Byte) :
    byteSum ((encodeFrame id x p).drop 2) % 256 = 0xFF :=
  (checksum_holds_iff (by simp)).mp (by simp)

/-- A change of one byte after the header breaks R108's sum, wherever the byte stands. -/
theorem byteSum_drop_set_encodeFrame {id x v : Byte} {p : List Byte} {i : Nat} (h2 : 2 ≤ i)
    (hi : i < (encodeFrame id x p).length) (hv : v ≠ byteAt (encodeFrame id x p) i) :
    byteSum (((encodeFrame id x p).set i v).drop 2) % 256 ≠ 0xFF := by
  obtain ⟨k, rfl⟩ := Nat.exists_eq_add_of_le h2
  rw [List.drop_set, if_neg h2.not_gt, Nat.add_sub_cancel_left, ← byteSum_drop_encodeFrame id x p]
  refine byteSum_set_mod_ne ?_ ?_
  · rw [List.length_drop]
    omega
  · rwa [byteAt_drop]

/-- Settles O5: a changed header byte fails R106's check, a changed length byte R107's, and a change anywhere else
passes both and breaks the sum of R108. -/
theorem singleByteChangeIsDetected : Obligations.SingleByteChangeIsDetected := by
  intro id x p i v hp hi hv
  have hsize : 6 ≤ ((encodeFrame id x p).set i v).length := by simp
  have hself : byteAt ((encodeFrame id x p).set i v) i = v := byteAt_set_self v hi
  have hother : ∀ j, i ≠ j → byteAt ((encodeFrame id x p).set i v) j = byteAt (encodeFrame id x p) j :=
    fun _ => byteAt_set_ne v
  have hlenByte : (lenByte p.length).toNat = p.length + 2 := lenByte_toNat hp
  split_ifs with hhead h3
  · refine decodeFrame_header hsize ?_
    obtain rfl | rfl := hhead
    · exact .inl (hself ▸ hv)
    · exact .inr (hself ▸ hv)
  · subst h3
    refine decodeFrame_length hsize (hother 0 (by decide)) (hother 1 (by decide)) ?_
    have hne : v.toNat ≠ p.length + 2 := fun he => hv (BitVec.eq_of_toNat_eq (he.trans hlenByte.symm))
    rw [hself, List.length_set, encodeFrame_length]
    omega
  · obtain ⟨hi0, hi1⟩ := not_or.mp hhead
    refine decodeFrame_checksumError hsize (hother 0 hi0) (hother 1 hi1) ?_ ?_
    · rw [hother 3 h3, byteAt_encodeFrame_three, hlenByte, List.length_set, encodeFrame_length]
    · exact mt (checksum_holds_iff hsize).mp (byteSum_drop_set_encodeFrame (by omega) hi hv)

end Sys2Proof

namespace Sys2Proof.Machine

/-! The conditions of the response error byte (R81, R111). -/

theorem mem_conditionNames (c : Condition) : c ∈ conditionNames := by
  cases c <;> decide

theorem mem_conditions_iff_bit {c : Condition} {e : Byte} : c ∈ conditions e ↔ e.getLsbD c.bit = true := by
  simp [conditions, mem_conditionNames]

theorem twoPow_bit_ne_zero (c : Condition) : BitVec.twoPow 8 c.bit ≠ 0 := by
  cases c <;> decide

/-- A condition is named exactly when its mask of R81 meets the byte. -/
theorem mem_conditions_iff_mask (c : Condition) {e : Byte} :
    c ∈ conditions e ↔ e &&& BitVec.twoPow 8 c.bit ≠ 0 := by
  rw [mem_conditions_iff_bit, BitVec.and_twoPow]
  cases e.getLsbD c.bit
  · simp
  · simpa using twoPow_bit_ne_zero c

/-- Settles O6: the conditions are the names of R81 in order, filtered by their bits. -/
theorem errorByteNamesEverySetBit : Obligations.ErrorByteNamesEverySetBit :=
  ⟨fun _ => rfl, fun _ _ he => if_neg he, fun _ => ⟨List.filter_sublist,
    mem_conditions_iff_mask .voltage, mem_conditions_iff_mask .angle,
    mem_conditions_iff_mask .overheat, mem_conditions_iff_mask .range,
    mem_conditions_iff_mask .checksum, mem_conditions_iff_mask .overload,
    mem_conditions_iff_mask .instruction, mem_conditions_iff_mask .unnamedBit7⟩⟩

end Sys2Proof.Machine
end

section
/-! PROOFS. The synchronizer's internal steps as equations, one for each way a rule applies, and the tick (R131 to R142;
O25, O26, O28, O29, O30, O31, O32). -/

namespace Sys2Proof.Machine

/-! A step of the block and the clock. -/

/-- An enabled internal step is what the internal move does. -/
theorem internalMove_of_step {s t : State} (h : internalStep s = some t) : internalMove s = t := by
  simp [internalMove, h]

/-- The step of a listed internal move is the internal step, with that move taken off the list. -/
theorem step_internal {s t : State} {rest : List Move} (hmoves : s.moves = .internal :: rest)
    (h : internalStep { s with moves := rest } = some t) : step s = .next t :=
  (step_move hmoves).trans (congrArg _ (internalMove_of_step h))

/-- A listed internal move of a blocked block changes only the list. -/
theorem step_internal_blocked {s : State} {rest : List Move} (hmoves : s.moves = .internal :: rest)
    (h : internalStep s = none) : step s = .next { s with moves := rest } :=
  (movesNotEnabledChangeNothing s rest).2.1 hmoves h

/-- Settles O25: `quietMove` is the internal step where there is one, else the tick. -/
theorem quietEnvironmentIsFair : Obligations.QuietEnvironmentIsFair := by
  intro s hmoves
  rw [step_quiet hmoves]
  rcases quietMove_cases s with h | ⟨h, htick⟩
  · exact ⟨fun t ht => congrArg _ (Option.some.inj (h.symm.trans ht)), fun hn => (nomatch h.symm.trans hn)⟩
  · exact ⟨fun t ht => (nomatch h.symm.trans ht), fun _ => congrArg _ htick⟩

/-- The awaiting states, listed (R20). -/
theorem mem_awaiting_iff (p : Phase) : p ∈ [Phase.awaitHeader, .awaitLength, .awaitPayload] ↔ p.awaiting = true := by
  cases p <;> decide

theorem tick_awaiting {s : State} (h : s.st.awaiting = true) :
    tick s = { s with elapsed := min (s.elapsed + 1) s.cfg.timeoutTicks } := by
  simp [tick, h]

/-- A tick of a settle counter that is already 0 leaves it, as the truncated subtraction does. -/
theorem tick_settling {s : State} (h : s.st = .settling) : tick s = { s with settle := s.settle - 1 } := by
  rcases tick_cases s with ⟨ha, _⟩ | ⟨_, _, ht⟩ | ⟨_, hz, ht⟩
  · simp [h, Phase.awaiting] at ha
  · exact ht
  · rw [ht, hz h, Nat.zero_sub, ← hz h]

theorem tick_other {s : State} (h : s.st ∈ [Phase.idle, .complete, .timedOut, .failed]) : tick s = s := by
  simp only [List.mem_cons, List.not_mem_nil, or_false] at h
  rcases h with h | h | h | h <;> simp [tick, h, Phase.awaiting]

/-- The tick count of a duration is the quotient rounded up (R141). -/
theorem ticksOf_le_iff {duration period n : Nat} (h : 0 < period) :
    ticksOf duration period ≤ n ↔ duration ≤ n * period := by
  rw [ticksOf, ← Nat.ceilDiv_eq_add_pred_div, ceilDiv_le_iff_le_mul h, Nat.mul_comm]

/-- Settles O26: one equation of `tick` for each kind of state, and the rounding up of `ticksOf`. -/
theorem tickCountsTheDeadlineAndTheSettle : Obligations.TickCountsTheDeadlineAndTheSettle := by
  refine ⟨fun s rest hmoves => ?_, fun _ _ _ => ticksOf_le_iff⟩
  rw [step_move hmoves]
  refine ⟨fun h => ?_, fun h => ?_, fun h => ?_⟩
  · exact congrArg _ (tick_awaiting ((mem_awaiting_iff _).mp h))
  · exact congrArg _ (tick_settling (s := { s with moves := rest }) h)
  · exact congrArg _ (tick_other (s := { s with moves := rest }) h)

/-! The synchronizer's steps. -/

/-- The head of a queue as a pair, by index. -/
theorem take_two_eq_iff {xs : List Byte} (h : 2 ≤ xs.length) (a b : Byte) :
    xs.take 2 = [a, b] ↔ byteAt xs 0 = a ∧ byteAt xs 1 = b := by
  match xs, h with
  | x :: y :: ys, _ => simp

section
variable {s : State}

/-- R131: past the deadline every awaiting state times out, whatever the queue holds. -/
theorem internalStep_late (hst : s.st.awaiting = true) (hd : s.cfg.timeoutTicks ≤ s.elapsed) :
    internalStep s = some { s with st := .timedOut } := by
  rw [← mem_awaiting_iff] at hst
  simp only [List.mem_cons, List.not_mem_nil, or_false] at hst
  rcases hst with h | h | h
  · rw [internalStep_awaitHeader h, awaitStep_late hd]
  · rw [internalStep_awaitLength h, awaitStep_late hd]
  · rw [internalStep_awaitPayload h, awaitStep_late hd]

/-- R132: the pair `FF FF` at the head is found, and stays queued. -/
theorem internalStep_header_found (hst : s.st = .awaitHeader) (hd : s.elapsed < s.cfg.timeoutTicks)
    (hl : 2 ≤ s.rxq.length) (h0 : byteAt s.rxq 0 = 0xFF) (h1 : byteAt s.rxq 1 = 0xFF) :
    internalStep s = some { s with st := .awaitLength } := by
  have hp : rxPeek 2 s = [Config.hdr0, Config.hdr1] := (take_two_eq_iff hl _ _).mpr ⟨h0, h1⟩
  rw [internalStep_awaitHeader hst, awaitStep_early hd, headerStep, if_pos hl, if_pos hp]

/-- R133: any other pair at the head loses its first byte. -/
theorem internalStep_header_skipped (hst : s.st = .awaitHeader) (hd : s.elapsed < s.cfg.timeoutTicks)
    (hl : 2 ≤ s.rxq.length) (h : ¬(byteAt s.rxq 0 = 0xFF ∧ byteAt s.rxq 1 = 0xFF)) :
    internalStep s = some { s with rxq := s.rxq.drop 1 } := by
  have hp : rxPeek 2 s ≠ [Config.hdr0, Config.hdr1] := fun he => h ((take_two_eq_iff hl _ _).mp he)
  rw [internalStep_awaitHeader hst, awaitStep_early hd, headerStep, if_pos hl, if_neg hp, rxDiscard]

/-- The length a `LEN` byte announces is the byte plus 4, and 9 bits hold it (R136). -/
theorem totalLength_eq (len : Byte) : totalLength len = BitVec.ofNat 9 (len.toNat + 4) := by
  apply BitVec.eq_of_toNat_eq
  have hbyte : len.toNat < 256 := len.isLt
  rw [totalLength_toNat, BitVec.toNat_ofNat, Nat.mod_eq_of_lt (by omega), Config.frameOverhead]

/-- R135, R136: four queued bytes are enough to read the announced length. -/
theorem internalStep_length_read (hst : s.st = .awaitLength) (hd : s.elapsed < s.cfg.timeoutTicks)
    (hl : 4 ≤ s.rxq.length) :
    internalStep s = some { s with
      totalLen := BitVec.ofNat 9 ((byteAt s.rxq 3).toNat + 4), st := .awaitPayload } := by
  rw [internalStep_awaitLength hst, awaitStep_early hd, lengthStep, if_pos hl, rxPeek, byteAt_take_four, totalLength_eq]

/-- R138: the announced number of bytes is taken from the head of the queue. -/
theorem internalStep_payload_taken {f tail : List Byte} (hst : s.st = .awaitPayload)
    (hd : s.elapsed < s.cfg.timeoutTicks) (hq : s.rxq = f ++ tail) (hf : f.length = s.totalLen.toNat) :
    internalStep s = some { s with frameBuf := f, rxq := tail, st := .complete } := by
  have hl : s.totalLen.toNat ≤ s.rxq.length := by simp [hq, ← hf]
  rw [internalStep_awaitPayload hst, awaitStep_early hd, payloadStep, if_pos hl]
  simp [rxDrop, rxPeek, hq, ← hf]

end

/-- Settles O28: `internalStep_late` is R131's comparison, which comes before each state's own progress. -/
theorem deadlineIsCheckedBeforeProgress : Obligations.DeadlineIsCheckedBeforeProgress :=
  fun _ _ hmoves hst hd => step_internal hmoves (internalStep_late ((mem_awaiting_iff _).mp hst) hd)

/-- Settles O29: a queue of two or more bytes starts with the pair or with another one; a shorter one blocks the search. -/
theorem headerSearchActsOnOnePair : Obligations.HeaderSearchActsOnOnePair := by
  intro s rest hmoves hst hd
  refine ⟨fun tail hq => ?_, fun a b tail hq hne => ?_, fun hl => ?_⟩
  · exact step_internal hmoves (internalStep_header_found hst hd (by simp [hq]) (by simp [hq]) (by simp [hq]))
  · rw [step_internal hmoves (internalStep_header_skipped hst hd (by simp [hq]) (by simpa [hq] using hne))]
    simp [hq]
  · exact step_internal_blocked hmoves
      ((internalStep_eq_none_iff s).mpr (.inr (.inr ⟨hd, .inl ⟨hst, hl⟩⟩)))

/-- Settles O30: the fourth byte of a queue of four or more is its length byte; a shorter queue blocks. -/
theorem lengthByteSetsTotalLength : Obligations.LengthByteSetsTotalLength := by
  intro s rest hmoves hst hd
  refine ⟨fun a b c len tail hq => ⟨?_, ?_⟩, fun hl => ?_⟩
  · rw [step_internal hmoves (internalStep_length_read hst hd (by simp [hq]))]
    simp [hq]
  · rw [← totalLength_eq, totalLength_toNat, Config.frameOverhead]
  · exact step_internal_blocked hmoves
      ((internalStep_eq_none_iff s).mpr (.inr (.inr ⟨hd, .inr (.inl ⟨hst, hl⟩)⟩)))

/-- Settles O31: `total_len` bytes at the head of the queue are taken whole; a shorter queue blocks. -/
theorem payloadIsExtractedWhole : Obligations.PayloadIsExtractedWhole := by
  intro s rest hmoves hst hd
  refine ⟨fun f tail hq hf => ?_, fun hl => ?_⟩
  · exact step_internal hmoves (internalStep_payload_taken hst hd hq hf)
  · exact step_internal_blocked hmoves
      ((internalStep_eq_none_iff s).mpr (.inr (.inr ⟨hd, .inr (.inr ⟨hst, hl⟩)⟩)))

/-- Settles O32: the step of `TIMED_OUT` is the flush, the result and `Finish` of R142. -/
theorem timeoutEmptiesTheQueue : Obligations.TimeoutEmptiesTheQueue :=
  fun _ _ hmoves hst => step_internal hmoves (internalStep_timedOut hst)

end Sys2Proof.Machine
end

section
/-! PROOFS. Runs of internal moves from the header search to the extracted frame (R143 to R145; O45, O46, O47), and the
ticks a timeout needs (R146; O48). -/

namespace Sys2Proof.Machine

/-! The header search. -/

/-- Settles O45, by induction on the number of bytes before the pair: each move drops one of them, and the last takes the
pair. -/
theorem firstHeaderPairWins : Obligations.FirstHeaderPairWins := by
  intro s i hst hd hl hno h0 h1
  induction i generalizing s with
  | zero => exact internalMove_of_step (internalStep_header_found hst hd hl h0 h1)
  | succ i ih =>
    have hskip : internalMove s = { s with rxq := s.rxq.drop 1 } :=
      internalMove_of_step (internalStep_header_skipped hst hd (by omega) (hno 0 (by omega)))
    have hbyte : ∀ j, byteAt (s.rxq.drop 1) j = byteAt s.rxq (j + 1) := fun j => by
      rw [byteAt_drop, Nat.add_comm]
    have hsearch := ih { s with rxq := s.rxq.drop 1 } hst hd (by simp; omega)
      (fun j hj => by simpa only [hbyte] using hno (j + 1) (by omega)) ((hbyte i).trans h0) ((hbyte (i + 1)).trans h1)
    rw [internalMoves, hskip, hsearch, List.drop_drop, Nat.add_comm]

/-! The extraction of a frame. -/

/-- Runs of internal moves compose. -/
theorem internalMoves_add (j k : Nat) (s : State) :
    internalMoves (j + k) s = internalMoves k (internalMoves j s) := by
  induction j generalizing s with
  | zero => rw [Nat.zero_add, internalMoves]
  | succ j ih => rw [Nat.succ_add, internalMoves, internalMoves, ih]

/-- Once the header is found, two moves extract the bytes that the length byte announces, if they are queued (R135,
R138). -/
theorem internalMoves_extracts {s : State} {f tail : List Byte} (hst : s.st = .awaitLength)
    (hd : s.elapsed < s.cfg.timeoutTicks) (hq : s.rxq = f ++ tail) (hfour : 4 ≤ f.length)
    (hlen : f.length = (byteAt f 3).toNat + 4) :
    internalMoves 2 s =
      { s with st := .complete, frameBuf := f, totalLen := BitVec.ofNat 9 f.length, rxq := tail } := by
  have hbyte : byteAt s.rxq 3 = byteAt f 3 := by rw [hq, byteAt_append_left hfour]
  have hread : internalMove s = { s with totalLen := BitVec.ofNat 9 f.length, st := .awaitPayload } := by
    rw [internalMove_of_step (internalStep_length_read hst hd (by simp [hq]; omega)), hbyte, hlen]
  have hfits : f.length = (BitVec.ofNat 9 f.length).toNat := by
    rw [hlen, ← totalLength_eq, totalLength_toNat, Config.frameOverhead]
  rw [internalMoves, hread]
  exact internalMove_of_step (internalStep_payload_taken rfl hd hq hfits)

/-- A frame that `Decode` accepts is headed and of the length it announces (R106, R107). -/
theorem decodeFrame_frame_shape {b : List Byte} {f : Frame} (h : decodeFrame b = .frame f) :
    6 ≤ b.length ∧ byteAt b 0 = 0xFF ∧ byteAt b 1 = 0xFF ∧ b.length = (byteAt b 3).toNat + 4 := by
  rcases decodeFrame_cases b with ⟨hb, _⟩ | ⟨hb, _⟩ | ⟨hb, _⟩ | ⟨hb, _⟩ | ⟨_, hsize, h0, h1, hlen, _⟩
  case inr.inr.inr.inr => exact ⟨hsize, h0, h1, hlen⟩
  all_goals exact nomatch hb.symm.trans h

/-- Settles O46: the frame's header is the first pair of the queue, so the search stops there, and two more moves extract
the frame. -/
theorem garbageBeforeAFrameIsDiscarded : Obligations.GarbageBeforeAFrameIsDiscarded := by
  intro s g f rest fr hdec hst hd hq hno
  obtain ⟨hsize, h0, h1, hlen⟩ := decodeFrame_frame_shape hdec
  have hgarbage : ∀ {j}, j < g.length + 2 → byteAt s.rxq j = byteAt (g ++ f) j := fun hj => by
    rw [hq, byteAt_append_left (by simp; omega)]
  have hhead : ∀ {j}, j < 2 → byteAt s.rxq (g.length + j) = byteAt f j := fun hj => by
    rw [hgarbage (by omega), byteAt_append_right]
  have hfound : internalMoves (g.length + 1) s = { s with st := .awaitLength, rxq := s.rxq.drop g.length } := by
    refine firstHeaderPairWins s g.length hst hd (by simp [hq]; omega) (fun j hj => ?_) ?_ ?_
    · rw [hgarbage (by omega), hgarbage (by omega)]
      exact hno j hj
    · exact (hhead (by omega)).trans h0
    · exact (hhead (by omega)).trans h1
  rw [show g.length + 3 = g.length + 1 + 2 from rfl, internalMoves_add, hfound]
  exact internalMoves_extracts rfl hd (by simp [hq]) (by omega) hlen

/-- Fewer than 6 extracted bytes are `SHORT`, whatever they are (R105, R178). -/
theorem validate_short {b : List Byte} (e : Byte) (h : b.length < 6) :
    validate b e = .failure .invalidResponse e .short := by
  simp [validate, decodeFrame_short h]

/-- Settles O47: the 4 or 5 announced bytes are extracted like any others, and `Validate` finds them too few. -/
theorem shortLengthByteIsInvalidResponse : Obligations.ShortLengthByteIsInvalidResponse := by
  intro s id len tail hst hd hq hshort hqueued
  have hextract := internalMoves_extracts (f := 0xFF :: 0xFF :: id :: len :: tail.take len.toNat)
    (tail := tail.drop len.toNat) hst hd (by simp [hq]) (by simp) (by simp [hqueued])
  have hsize : (0xFF :: 0xFF :: id :: len :: tail.take len.toNat : List Byte).length < 6 := by simp; omega
  rw [internalMoves_add 2 1, hextract, internalMoves, internalMoves,
    internalMove_of_step (internalStep_complete rfl), validate_short _ hsize]
  simp [Result.failure]

/-! The ticks before a timeout. -/

/-- Only a tick adds to the elapsed count, and it adds 1 (R141). -/
theorem afterMove_elapsed_le (m : Move) (s : State) : (afterMove m s).elapsed ≤ s.elapsed + tickCount [m] := by
  cases m with
  | command c =>
    show (offerOther c s).elapsed ≤ s.elapsed
    rcases offerOther_cases c s with ⟨_, _, h⟩ | ⟨_, _, h⟩ | ⟨_, _, h⟩ | ⟨_, _, h⟩ | ⟨_, _, h⟩ |
      ⟨_, _, _, _, _, _, h⟩ | ⟨_, _, _, _, _, _, _, h⟩ | ⟨_, _, _, _, h⟩ <;> simp [h]
  | rx b =>
    show (rxPush b s).elapsed ≤ s.elapsed
    rcases rxPush_cases b s with ⟨_, h⟩ | ⟨_, _, h⟩ | ⟨_, _, h⟩ <;> simp [h]
  | tick =>
    show (tick s).elapsed ≤ s.elapsed + 1
    rcases tick_cases s with ⟨_, h⟩ | ⟨_, _, h⟩ | ⟨_, _, h⟩ <;> simp [h]
  | internal =>
    show (internalMove s).elapsed ≤ s.elapsed
    rcases internalMove_cases s with h | ⟨_, h⟩
    · rcases internalStep_cases h with ⟨_, _, h⟩ | ⟨_, _, _, _, h⟩ | ⟨_, _, _, _, h⟩ | ⟨_, _, _, h⟩ |
        ⟨_, _, _, h⟩ | ⟨_, h⟩ | ⟨_, h⟩ | ⟨_, h⟩ | ⟨_, _, h⟩ <;> simp [h]
    · rw [h]
  | reset => exact Nat.zero_le _

theorem finish_ne_timedOut (s : State) : (finish s).st ≠ .timedOut := by
  rcases finish_st s with h | h <;> simp [h]

/-- `TIMED_OUT` is entered only past the deadline (R131). -/
theorem internalStep_timedOut_of_late {s t : State} (h : internalStep s = some t) (ht : t.st = .timedOut) :
    s.cfg.timeoutTicks ≤ s.elapsed := by
  rcases internalStep_cases h with ⟨_, hd, _⟩ | ⟨_, _, _, _, rfl⟩ | ⟨hst, _, _, _, rfl⟩ | ⟨_, _, _, rfl⟩ |
    ⟨_, _, _, rfl⟩ | ⟨_, rfl⟩ | ⟨_, rfl⟩ | ⟨_, rfl⟩ | ⟨_, _, rfl⟩
  · exact hd
  · cases ht
  · exact nomatch hst.symm.trans ht
  · cases ht
  · cases ht
  · exact absurd ht (finish_ne_timedOut _)
  · exact absurd ht (finish_ne_timedOut _)
  · cases ht
  · cases ht

/-- No command enters `TIMED_OUT`. -/
theorem offerOther_timedOut {c : HostCmd} {s : State} (ht : (offerOther c s).st = .timedOut) : s.st = .timedOut := by
  rcases offerOther_cases c s with ⟨_, _, h⟩ | ⟨_, _, h⟩ | ⟨_, _, h⟩ | ⟨_, _, h⟩ | ⟨_, _, h⟩ |
    ⟨_, _, _, _, _, _, h⟩ | ⟨_, _, _, _, _, _, _, h⟩ | ⟨_, _, _, _, h⟩ <;> rw [h] at ht
  · exact ht
  · exact ht
  · exact ht
  · exact ht
  · cases ht
  · cases ht
  · exact absurd ht (finish_ne_timedOut _)
  · cases ht

/-- A move that ends in `TIMED_OUT` started there, or past the deadline. -/
theorem afterMove_timedOut {m : Move} {s : State} (ht : (afterMove m s).st = .timedOut) :
    s.st = .timedOut ∨ s.cfg.timeoutTicks ≤ s.elapsed := by
  cases m with
  | command c => exact .inl (offerOther_timedOut ht)
  | rx b =>
    rcases rxPush_cases b s with ⟨_, h⟩ | ⟨_, _, h⟩ | ⟨_, _, h⟩ <;> exact .inl (by simpa [afterMove, h] using ht)
  | tick =>
    rcases tick_cases s with ⟨_, h⟩ | ⟨_, _, h⟩ | ⟨_, _, h⟩ <;> exact .inl (by simpa [afterMove, h] using ht)
  | internal =>
    rcases internalMove_cases s with h | ⟨_, h⟩
    · exact .inr (internalStep_timedOut_of_late h ht)
    · exact .inl (by simpa [afterMove, h] using ht)
  | reset => cases ht

theorem tickCount_cons (m : Move) (ms : List Move) : tickCount (m :: ms) = tickCount [m] + tickCount ms :=
  List.count_append (l₁ := [m])

/-- Settles O48, by induction on the moves: the ticks elapsed and those still to come stay below the deadline. -/
theorem timeoutIsNeverEarly : Obligations.TimeoutIsNeverEarly := by
  intro s t ms rest hmoves hst hd hrun
  induction ms generalizing s with
  | nil => exact (runsTo_zero s t).mp hrun ▸ hst
  | cons m ms ih =>
    have hstep : afterStep s = afterMove m { s with moves := ms ++ rest } :=
      (eq_afterStep_of_step (step_move hmoves)).symm
    obtain ⟨hcfg, hrest⟩ := afterMove_cfg_moves m { s with moves := ms ++ rest }
    have helapsed := afterMove_elapsed_le m { s with moves := ms ++ rest }
    rw [tickCount_cons] at hd
    refine ih _ ?_ ?_ ?_ ((runsTo_succ _ _ _).mp hrun) <;> rw [hstep]
    · exact hrest
    · intro ht
      rcases afterMove_timedOut ht with h | h
      · exact hst h
      · exact absurd h (by simp only; omega)
    · rw [hcfg]
      simp only at helapsed ⊢
      omega

end Sys2Proof.Machine
end

section
/-! PROOFS. The host commands (42_transaction.md sections 1, 2, 5 and 8): acceptance and its checks, CONNECT, DISCONNECT,
RECEIVE and the group write (R160 to R166, R175, R187; O17 to O22, O57). -/

namespace Sys2Proof.Machine

/-! Acceptance, and what each check comes to for a closed and an open transport. -/

/-- A command is offered to the acceptance of its own check and rule (R160, R162). -/
theorem offerOther_transact (id code : Byte) (p : List Byte) (s : State) :
    offerOther (.transact id code p) s = accept (checkTransact s.connected id code p) (runTransact id code p) s := rfl

theorem offerOther_send (id code : Byte) (p : List Byte) (s : State) :
    offerOther (.send id code p) s = accept (checkSend s.connected id code p) (runSend code p) s := rfl

theorem offerOther_receive (id : Byte) (s : State) :
    offerOther (.receive id) s = accept (checkReceive s.connected id) (runReceive id) s := rfl

theorem offerOther_connect (s : State) : offerOther .connect s = accept none runConnect s := rfl

section
variable {c : HostCmd} {s : State}

/-- A busy block takes no command but DISCONNECT (R160). -/
theorem offerOther_busy (h : s.st ≠ .idle) (hc : c ≠ .disconnect) : offerOther c s = s := by
  cases c with
  | disconnect => exact absurd rfl hc
  | connect => rw [offerOther_connect, accept_busy h]
  | transact id code p => rw [offerOther_transact, accept_busy h]
  | send id code p => rw [offerOther_send, accept_busy h]
  | receive id => rw [offerOther_receive, accept_busy h]

/-- CONNECT in `IDLE` opens the transport, and is posted in its acceptance (R163). -/
theorem offerOther_connect_idle (h : s.st = .idle) :
    offerOther .connect s = { s with connected := true, rxOverflow := false, result := .okay 0, done := true } := by
  rw [offerOther_connect, accept_pass h]
  rfl

/-- DISCONNECT in a busy state aborts the command (R165). -/
theorem offerOther_disconnect_busy (h : s.st ≠ .idle) :
    offerOther .disconnect s =
      { s with connected := false, rxq := [], settle := 0, st := .failed, done := false } := by
  simp [offerOther, offerDisconnect, ready, h, tearDown, acknowledge]

/-- DISCONNECT in `IDLE` is posted in its acceptance (R164). -/
theorem offerOther_disconnect_idle (h : s.st = .idle) :
    offerOther .disconnect s = { s with connected := false, rxq := [], result := .okay 0, done := true } := by
  simp [offerOther, offerDisconnect, ready, h, tearDown, acknowledge, post]

end

section
variable {check : Option Result} {run : State → State} {s : State}

/-- A check that fails decides the command (R161). -/
theorem accept_of_check_fails {r : Result} (hst : s.st = .idle) (hcheck : check = some r) :
    accept check run s = { s with result := r, done := true } :=
  hcheck ▸ accept_fail hst

/-- A check that passes leaves the command to its rule (R160). -/
theorem accept_of_check_passes (hst : s.st = .idle) (hcheck : check = none) :
    accept check run s = run { s with done := false } :=
  hcheck ▸ accept_pass hst

end

section
variable {c : Bool} {id : Byte}

theorem checkConnection_of_closed (h : c = false) :
    checkConnection c id = some (.failure .connectionLost id .none) := by
  rw [h, checkConnection_closed]

theorem checkConnection_of_open (h : c = true) : checkConnection c id = none := by
  rw [h, checkConnection_open]

end

/-- Settles O17: the next state is `accept` of the command's check and rule, and Laws/Operands has one equation of the check
for each line of R162. -/
theorem acceptanceChecksRunInOrder : Obligations.AcceptanceChecksRunInOrder := by
  intro s rest id code p hst
  refine ⟨fun hmoves => ?_, fun hmoves => ?_, fun hmoves => ?_⟩ <;> rw [step_move hmoves]
  · refine ⟨fun hid => ?_, fun hid hcode => ?_, fun hid hcode hp => ?_, fun hid hcode hp hc => ?_,
      fun hid hcode hp hc => ?_⟩
    · exact congrArg _ (accept_of_check_fails hst (checkTransact_badId hid))
    · exact congrArg _ (accept_of_check_fails hst (checkTransact_badInstr hid hcode))
    · exact congrArg _ (accept_of_check_fails hst (checkTransact_tooManyParams hid hcode hp))
    · exact congrArg _ (accept_of_check_fails hst
        ((checkTransact_connection hid hcode hp).trans (checkConnection_of_closed hc)))
    · exact congrArg _ (accept_of_check_passes hst
        ((checkTransact_connection hid hcode hp).trans (checkConnection_of_open hc)))
  · refine ⟨fun hid => ?_, ?_, ?_, ?_, ?_⟩
    · exact congrArg _ (accept_of_check_fails hst (checkSend_badId hid))
    · rintro rfl hcode
      exact congrArg _ (accept_of_check_fails hst (checkSend_badInstr hcode))
    · rintro rfl hcode hp
      exact congrArg _ (accept_of_check_fails hst (checkSend_tooManyParams hcode hp))
    · rintro rfl hcode hp hc
      exact congrArg _ (accept_of_check_fails hst
        ((checkSend_connection hcode hp).trans (checkConnection_of_closed hc)))
    · rintro rfl hcode hp hc
      exact congrArg _ (accept_of_check_passes hst
        ((checkSend_connection hcode hp).trans (checkConnection_of_open hc)))
  · refine ⟨fun hid => ?_, fun hid hc => ?_, fun hid hc => ?_⟩
    · exact congrArg _ (accept_of_check_fails hst (checkReceive_badId hid))
    · exact congrArg _ (accept_of_check_fails hst
        ((checkReceive_connection hid).trans (checkConnection_of_closed hc)))
    · exact congrArg _ (accept_of_check_passes hst
        ((checkReceive_connection hid).trans (checkConnection_of_open hc)))

/-- Settles O18: an instruction is the offer of a TRANSACT or SEND, which a busy block does not take. -/
theorem busyBlockTakesNoCommand : Obligations.BusyBlockTakesNoCommand := by
  intro s hst
  refine ⟨fun i => ?_, fun c rest hc hmoves => ?_⟩
  · have hcommand : i.command ≠ .disconnect := by cases i <;> exact HostCmd.noConfusion
    rw [exec_eq_offerOther, offerOther_busy hst hcommand]
  · rw [step_move hmoves]
    exact congrArg _ (offerOther_busy hst hc)

/-- Settles O19: CONNECT has no check to fail. -/
theorem connectOpensTheTransport : Obligations.ConnectOpensTheTransport := by
  intro s rest hmoves hst
  rw [step_move hmoves]
  exact congrArg _ (offerOther_connect_idle (s := { s with moves := rest }) hst)

/-- Settles O20: DISCONNECT of an idle block tears the receiver down and posts. -/
theorem disconnectInIdleClosesTheTransport : Obligations.DisconnectInIdleClosesTheTransport := by
  intro s rest hmoves hst
  rw [step_move hmoves]
  exact congrArg _ (offerOther_disconnect_idle (s := { s with moves := rest }) hst)

/-- The step of a DISCONNECT offered to a busy block. -/
theorem step_disconnect_busy {s : State} {rest : List Move} (hst : s.st ≠ .idle)
    (hmoves : s.moves = .command .disconnect :: rest) :
    step s = .next { s with
      moves := rest, connected := false, rxq := [], settle := 0, st := .failed, done := false } := by
  rw [step_move hmoves]
  exact congrArg _ (offerOther_disconnect_busy (s := { s with moves := rest }) hst)

/-- Settles O21: the abort leads to `FAILED`, whose one internal step posts `ConnectionLost`. -/
theorem disconnectAbortsACommand : Obligations.DisconnectAbortsACommand := by
  intro s rest hst
  refine ⟨step_disconnect_busy hst, fun hmoves => ?_⟩
  rw [runsTo_succ, ← eq_afterStep_of_step (step_disconnect_busy hst hmoves), runsTo_succ, runsTo_zero]
  exact (eq_afterStep_of_step (step_internal rfl (internalStep_failed rfl))).symm

/-- Settles O22: RECEIVE of a unicast id passes its check when the transport is open, and its rule is R175's. -/
theorem receiveAwaitsWithoutFlush : Obligations.ReceiveAwaitsWithoutFlush := by
  intro s rest id hmoves hst hc hid
  rw [step_move hmoves]
  exact congrArg _ (accept_of_check_passes hst ((checkReceive_connection hid).trans (checkConnection_of_open hc)))

/-! The group write (R84, R187). -/

/-- Entries of one width `w` make `1 + w` parameters each. -/
theorem flatten_entries_length {entries : List (Byte × List Byte)} {w : Nat} (h : ∀ e ∈ entries, e.2.length = w) :
    (entries.map fun e => e.1 :: e.2).flatten.length = entries.length * (1 + w) := by
  induction entries with
  | nil => simp
  | cons e es ih =>
    obtain ⟨he, hes⟩ := List.forall_mem_cons.mp h
    simp only [List.map_cons, List.flatten_cons, List.length_append, List.length_cons, he, ih hes, Nat.add_mul,
      Nat.one_mul]
    omega

/-- The host's check of the values: each has the register's width (R187). -/
theorem all_entries_width_iff {entries : List (Byte × List Byte)} {w : Nat} :
    (entries.all fun e => e.2.length == w) = true ↔ ∀ e ∈ entries, e.2.length = w := by
  simp

/-- Settles O57: the host's checks decide, and the parameters are R84's layout. -/
theorem groupWriteIsOneSend : Obligations.GroupWriteIsOneSend := by
  intro addr width entries
  rw [groupWrite]
  refine ⟨fun hbad => if_neg ?_, fun hne hw => ?_⟩
  · rintro ⟨hne, hall⟩
    rcases hbad with hnil | ⟨e, he, hwidth⟩
    · exact hne hnil
    · exact hwidth (all_entries_width_iff.mp hall e he)
  · have hlayout : syncWriteParams addr width entries = addr :: width :: (entries.map fun e => e.1 :: e.2).flatten :=
      congrArg (addr :: width :: ·) List.flatMap_def
    refine ⟨_, if_pos ⟨hne, all_entries_width_iff.mpr hw⟩, ?_, hlayout⟩
    rw [hlayout, List.length_cons, List.length_cons, flatten_entries_length hw]
    omega

end Sys2Proof.Machine
end

section
/-! PROOFS. The end of a command (42_transaction.md sections 2 and 6): the settle classes, `Finish`, and the steps of
`COMPLETE`, `FAILED` and `SETTLING` (R166, R179 to R182; O33 to O37). -/

namespace Sys2Proof.Machine

/-! The settle classes (R181). -/

/-- A code that the default table does not list has class `NONE`. -/
theorem lookup_defaultSettleClass_other {code : Byte}
    (h : code ∉ ([0x01, 0x02, 0x03, 0x04, 0x05, 0x06, 0x08, 0x82, 0x83] : List Byte)) :
    Config.defaultSettleClass.lookup code = none := by
  simpa [Config.defaultSettleClass, List.lookup_eq_none_iff] using h

/-- Under the default table the class of a code is what the table says. -/
theorem settleClassOf_default {p : Params} (h : p.settleClass = Config.defaultSettleClass) (code : Byte) :
    settleClassOf p code = (Config.defaultSettleClass.lookup code).getD .none := by
  rw [settleClassOf, h]

/-- Settles O35: the default table, looked up code by code. -/
theorem defaultSettleClasses : Obligations.DefaultSettleClasses := by
  refine ⟨rfl, fun p => ⟨rfl, rfl, rfl⟩, fun p hp => ?_⟩
  simp only [settleClassOf_default hp]
  refine ⟨rfl, rfl, rfl, rfl, rfl, rfl, rfl, rfl, rfl, fun code hcode => ?_⟩
  rw [lookup_defaultSettleClass_other hcode]
  rfl

/-- The settle delay of a command that sent a request is that of the request's class (R180). -/
theorem settleTicks_of_class {p : Params} {m : Mode} {code : Byte} {c : SettleClass} (hm : m ≠ .receive)
    (hc : settleClassOf p code = c) : settleTicks p m code = classTicks p c := by
  rw [settleTicks, if_neg hm, hc]

/-! `Finish` (R180). -/

/-- A positive delay is loaded, and the result held. -/
theorem finish_loads {s : State} {k : Nat} (h : settleTicks s.cfg s.mode s.reqInstr = k) (hk : 0 < k) :
    finish s = { s with settle := k, st := .settling } := by
  subst h
  exact finish_settles hk

/-- Settles O34: the delay is that of the class, and it alone decides between holding the result and posting it. -/
theorem finishSettlesByClass : Obligations.FinishSettlesByClass := by
  intro s
  refine ⟨fun hm => ?_, fun hm hc => ?_, fun hm hc hk => ?_, fun hm hc hk => ?_, fun hm hc hk => ?_,
    fun hm hc hk => ?_⟩
  · exact finish_posts (by rw [hm, settleTicks_receive])
  · exact finish_posts (settleTicks_of_class hm hc)
  · exact finish_loads (settleTicks_of_class hm hc) hk
  · exact finish_loads (settleTicks_of_class hm hc) hk
  · exact finish_posts ((settleTicks_of_class hm hc).trans hk)
  · exact finish_posts ((settleTicks_of_class hm hc).trans hk)

/-! The internal steps after the reply is in, or will not come. -/

/-- Settles O33: the internal step of `COMPLETE` is R179's. -/
theorem completeValidatesAndFinishes : Obligations.CompleteValidatesAndFinishes :=
  fun _ _ hmoves hst => step_internal hmoves (internalStep_complete hst)

/-- Settles O36: the internal step of `FAILED` is R166's. -/
theorem failedPostsConnectionLost : Obligations.FailedPostsConnectionLost :=
  fun _ _ hmoves hst => step_internal hmoves (internalStep_failed hst)

/-- A settle delay that is over ends with the result it held (R182). -/
theorem internalStep_settling_over {s : State} (hst : s.st = .settling) (hz : s.settle = 0) :
    internalStep s = some { s with st := .idle, done := true } := by
  rw [internalStep_settling hst, settlingStep, if_pos hz]

/-- Settles O37: a positive counter blocks the block and is counted down by the clock, a counter of 0 ends the delay, and
DISCONNECT aborts it. -/
theorem settlingWaitsForItsCounter : Obligations.SettlingWaitsForItsCounter := by
  intro s rest hst
  refine ⟨fun hmoves hk => ?_, fun hmoves _ => ?_, fun hmoves hz => ?_, fun hmoves => ?_⟩
  · exact step_internal_blocked hmoves ((internalStep_eq_none_iff s).mpr (.inr (.inl ⟨hst, hk⟩)))
  · rw [step_move hmoves]
    exact congrArg _ (tick_settling (s := { s with moves := rest }) hst)
  · exact step_internal hmoves (internalStep_settling_over hst hz)
  · exact ⟨_, step_disconnect_busy (by simp [hst]) hmoves, rfl⟩

end Sys2Proof.Machine
end

section
/-! PROOFS. The wire instructions (43_wire_instructions.md; 42_transaction.md sections 1, 3 and 4): each is accepted by the
check of the command that sends it, and runs that command's rule (R161, R162, R167, R170; O12, O14 to O16). -/

namespace Sys2Proof

/-- The check of the command that sends an instruction, on the instruction's operands (R162). -/
def Instr.check (i : Instr) (connected : Bool) : Option Machine.Result :=
  match i.sender with
  | .transact => Machine.checkTransact connected i.id (opcode i) i.params
  | .send => Machine.checkSend connected i.id (opcode i) i.params

/-- The rule of the command that sends an instruction (R167, R170). -/
def Instr.run (i : Instr) (s : Machine.State) : Machine.State :=
  match i.sender with
  | .transact => Machine.runTransact i.id (opcode i) i.params s
  | .send => Machine.runSend (opcode i) i.params s

namespace Machine

/-- The meaning of an instruction is acceptance: its check, then its rule (R79, R160). -/
theorem exec_eq_accept (i : Instr) (s : State) : exec i s = .next (accept (i.check s.connected) i.run s) := by
  cases i <;> rfl

section
variable {i : Instr} {c : Bool}

theorem idOk_iff_of_transact (h : i.sender = .transact) : i.idOk = true ↔ i.id.toNat ≤ 253 := by
  rw [Instr.idOk, h]
  exact decide_eq_true_iff

theorem idOk_iff_of_send (h : i.sender = .send) : i.idOk = true ↔ i.id = 0xFE := by
  rw [Instr.idOk, h]
  exact decide_eq_true_iff

/-- An instruction's code is always one that its command admits: only the id, the parameters and the transport are left to
check (R79, R162). -/
theorem check_badId (h : i.idOk = false) : i.check c = some (.failure .invalidParameter i.id .badId) := by
  unfold Instr.check
  cases hs : i.sender with
  | transact => exact checkTransact_badId (by simpa [h] using (idOk_iff_of_transact hs).not)
  | send => exact checkSend_badId (by simpa [h] using (idOk_iff_of_send hs).not)

theorem check_tooManyParams (h : i.idOk = true) (hp : 253 < i.params.length) :
    i.check c = some (.failure .invalidParameter i.id .tooManyParams) := by
  unfold Instr.check
  cases hs : i.sender with
  | transact => exact checkTransact_tooManyParams ((idOk_iff_of_transact hs).mp h) ((sender_transact_iff i).mp hs) hp
  | send =>
    rw [(idOk_iff_of_send hs).mp h]
    exact checkSend_tooManyParams ((sender_send_iff i).mp hs) hp

theorem check_connection (h : i.idOk = true) (hp : i.params.length ≤ 253) : i.check c = checkConnection c i.id := by
  unfold Instr.check
  cases hs : i.sender with
  | transact => exact checkTransact_connection ((idOk_iff_of_transact hs).mp h) ((sender_transact_iff i).mp hs) hp
  | send =>
    rw [(idOk_iff_of_send hs).mp h]
    exact checkSend_connection ((sender_send_iff i).mp hs) hp

end

/-- Settles O16: R162's checks on the operands of an instruction, whose code always passes. -/
theorem refusedInstructionsPostAndSendNothing : Obligations.RefusedInstructionsPostAndSendNothing := by
  intro s i hst
  rw [exec_eq_accept]
  refine ⟨fun hid => ?_, fun hid hp => ?_, fun hwf hc => ?_⟩
  · exact congrArg _ (accept_of_check_fails hst (check_badId hid))
  · exact congrArg _ (accept_of_check_fails hst (check_tooManyParams hid hp))
  · obtain ⟨hid, hp⟩ := wellFormed_iff.mp hwf
    exact congrArg _ (accept_of_check_fails hst ((check_connection hid hp).trans (checkConnection_of_closed hc)))

/-- An instruction that the encoding admits runs its rule on an idle block with an open transport. -/
theorem exec_of_accepted {i : Instr} {s : State} (hst : s.st = .idle) (hc : s.connected = true) (hid : i.idOk = true)
    (hp : i.params.length ≤ 253) : exec i s = .next (i.run { s with done := false }) := by
  rw [exec_eq_accept]
  exact congrArg _ (accept_of_check_passes hst ((check_connection hid hp).trans (checkConnection_of_open hc)))

/-- An accepted unicast instruction flushes, writes its frame and awaits a header (R167). -/
theorem exec_unicast {i : Instr} {s : State} (hs : i.sender = .transact) (hst : s.st = .idle) (hc : s.connected = true)
    (hid : i.id.toNat ≤ 253) (hp : i.params.length ≤ 253) :
    exec i s = .next { s with
      done := false, rxq := [], txh := s.txh ++ [.flush] ++ [.write (encode i)], mode := .transact,
      expId := i.id, reqInstr := opcode i, elapsed := 0, st := .awaitHeader } := by
  rw [exec_of_accepted hst hc ((idOk_iff_of_transact hs).mpr hid) hp, Instr.run, hs]
  rfl

/-- Settles O12: the five instructions are sent by TRANSACT. -/
theorem unicastInstructionsTransmitAndAwait : Obligations.UnicastInstructionsTransmitAndAwait :=
  fun _ id p hst hc hid hp =>
    ⟨exec_unicast (i := .ping id p) rfl hst hc hid hp, exec_unicast (i := .read id p) rfl hst hc hid hp,
      exec_unicast (i := .write id p) rfl hst hc hid hp, exec_unicast (i := .factoryReset id p) rfl hst hc hid hp,
      exec_unicast (i := .reboot id p) rfl hst hc hid hp⟩

/-- An accepted group instruction flushes, writes its broadcast frame, and finishes with `OK` (R170, R180). -/
theorem exec_group {i : Instr} {s : State} (hs : i.sender = .send) (hst : s.st = .idle) (hc : s.connected = true)
    (hid : i.id = 0xFE) (hp : i.params.length ≤ 253) :
    exec i s = .next { s with
      rxq := [], txh := s.txh ++ [.flush] ++ [.write (encodeFrame 0xFE (opcode i) i.params)], mode := .send,
      reqInstr := opcode i, result := .okay 0xFE,
      settle := settleTicks s.cfg .send (opcode i),
      st := if 0 < settleTicks s.cfg .send (opcode i) then .settling else .idle,
      done := decide (settleTicks s.cfg .send (opcode i) = 0) } := by
  rw [exec_of_accepted hst hc ((idOk_iff_of_send hs).mpr hid) hp, Instr.run, hs]
  have hdone : decide (settleTicks s.cfg .send (opcode i) = 0) =
      if 0 < settleTicks s.cfg .send (opcode i) then false else true := by
    rcases Nat.eq_zero_or_pos (settleTicks s.cfg .send (opcode i)) with h | h <;> simp [h, Nat.ne_of_gt]
  rw [hdone]
  exact congrArg _ (finish_eq _)

/-- Settles O14: SYNC_READ is sent by SEND, and its code has class `NONE` by default. -/
theorem syncReadTransmitsAndPosts : Obligations.SyncReadTransmitsAndPosts :=
  fun _ p hst hc hp => ⟨exec_group (i := .syncRead 0xFE p) rfl hst hc rfl hp, fun hclass =>
    settleTicks_of_class (m := .send) (by simp) (settleClassOf_default hclass 0x82)⟩

/-- Settles O15: SYNC_WRITE is sent by SEND, and its code has class `WRITE` by default. -/
theorem syncWriteTransmitsAndSettles : Obligations.SyncWriteTransmitsAndSettles :=
  fun _ p hst hc hp => ⟨exec_group (i := .syncWrite 0xFE p) rfl hst hc rfl hp, fun hclass =>
    settleTicks_of_class (m := .send) (by simp) (settleClassOf_default hclass 0x83)⟩

end Machine

end Sys2Proof
end

section
/-! PROOFS. `Validate` (R178, R184; O39, O40), and RECEIVE on bytes already queued (R175, R176; O55). -/

namespace Sys2Proof.Machine

/-! `Validate`, one equation for each check that decides (R178). -/

section
variable {b : List Byte} {e : Byte} {f : Frame}

theorem validate_invalidResponse {r : Reason} (h : decodeFrame b = .invalidResponse r) :
    validate b e = .failure .invalidResponse e r := by
  rw [validate, h]

theorem validate_checksumError {i : Byte} (h : decodeFrame b = .checksumError i) :
    validate b e = .failure .checksumError i .none := by
  rw [validate, h]

theorem validate_frame (h : decodeFrame b = .frame f) : validate b e = judgeFrame f e := by
  rw [validate, h]

theorem judgeFrame_otherId (h : f.id ≠ e) : judgeFrame f e = .failure .invalidResponse e .idMismatch :=
  if_pos h

theorem judgeFrame_errorBits (hid : f.id = e) (herr : f.err ≠ 0) :
    judgeFrame f e = { kind := .hardwareError, id := f.id, reason := .none, errbits := f.err, frame := none } := by
  rw [judgeFrame, if_neg (not_not.mpr hid), errorBitsToFailure, if_neg herr]

theorem judgeFrame_ok (hid : f.id = e) (herr : f.err = 0) :
    judgeFrame f e = { kind := .ok, id := f.id, reason := .none, errbits := 0, frame := some f } := by
  rw [judgeFrame, if_neg (not_not.mpr hid), errorBitsToFailure, if_pos herr]

/-- `Validate` answers `OK` for no other bytes than a frame from the expected id with a zero error byte (R184). -/
theorem frame_of_validate_ok (h : (validate b e).kind = .ok) :
    ∃ f, decodeFrame b = .frame f ∧ f.id = e ∧ f.err = 0 := by
  cases hb : decodeFrame b with
  | invalidResponse r => rw [validate_invalidResponse hb] at h; cases h
  | checksumError i => rw [validate_checksumError hb] at h; cases h
  | frame f =>
    rw [validate_frame hb] at h
    by_cases hid : f.id = e
    · by_cases herr : f.err = 0
      · exact ⟨f, rfl, hid, herr⟩
      · rw [judgeFrame_errorBits hid herr] at h; cases h
    · rw [judgeFrame_otherId hid] at h; cases h

end

/-- Settles O39: one equation of `Validate` for each outcome of the codec, and one of the judgement for each check after
it. -/
theorem validateChecksInOrder : Obligations.ValidateChecksInOrder := by
  intro b e
  refine ⟨fun _ h => validate_invalidResponse h, fun _ h => validate_checksumError h, fun f h => ?_⟩
  rw [validate_frame h]
  exact ⟨judgeFrame_otherId, judgeFrame_errorBits, judgeFrame_ok⟩

/-- A good reply of the expected device, and what the result then carries (R184). -/
theorem validate_encodeFrame (e : Byte) {p : List Byte} (hp : p.length ≤ 253) :
    validate (encodeFrame e 0 p) e =
      { kind := .ok, id := e, reason := .none, errbits := 0,
        frame := some ⟨e, lenByte p.length, 0, p, checksum (frameBody e 0 p)⟩ } :=
  (validate_frame (decodeFrame_encodeFrame e 0 hp)).trans (judgeFrame_ok rfl rfl)

/-- Settles O40: an accepted frame is `Encode` of its fields, of which the id and the error byte are known. -/
theorem okExactlyForAGoodReply : Obligations.OkExactlyForAGoodReply := by
  intro b e
  constructor
  · intro hok
    obtain ⟨f, hf, rfl, herr⟩ := frame_of_validate_ok hok
    obtain ⟨hp, hb⟩ := eq_encodeFrame_of_decodeFrame hf
    rw [herr] at hb
    exact ⟨f.params, hp, hb, hb ▸ congrArg Result.frame (validate_encodeFrame f.id hp)⟩
  · rintro ⟨p, hp, rfl, -⟩
    rw [validate_encodeFrame e hp]

/-! Runs of internal moves as runs of the machine. -/

theorem internalMoves_moves (k : Nat) (s : State) (ms : List Move) :
    internalMoves k { s with moves := ms } = { internalMoves k s with moves := ms } := by
  induction k generalizing s with
  | zero => rfl
  | succ k ih => rw [internalMoves, internalMoves, internalMove_moves, ih]

/-- A list that starts with `k` internal moves takes the machine through them. -/
theorem runsTo_internalMoves {k : Nat} {s : State} {rest : List Move}
    (h : s.moves = List.replicate k .internal ++ rest) : runsTo k s { internalMoves k s with moves := rest } := by
  induction k generalizing s with
  | zero =>
    rw [runsTo_zero]
    exact congrArg (fun ms => { s with moves := ms }) h
  | succ k ih =>
    have hstep : afterStep s = { internalMove s with moves := List.replicate k .internal ++ rest } := by
      rw [← internalMove_moves]
      exact (eq_afterStep_of_step (step_move h)).symm
    rw [runsTo_succ, internalMoves, hstep]
    have hrun := ih (s := { internalMove s with moves := List.replicate k .internal ++ rest }) rfl
    rwa [internalMoves_moves] at hrun

/-! RECEIVE on a queued frame (R176). -/

/-- A valid frame at the head of the queue is extracted in three internal moves. -/
theorem internalMoves_extracts_encodeFrame {s : State} {j err : Byte} {q tail : List Byte} (hst : s.st = .awaitHeader)
    (hd : s.elapsed < s.cfg.timeoutTicks) (hp : q.length ≤ 253) (hq : s.rxq = encodeFrame j err q ++ tail) :
    internalMoves 3 s = { s with
      st := .complete, frameBuf := encodeFrame j err q, totalLen := BitVec.ofNat 9 (q.length + 6), rxq := tail } := by
  have h := garbageBeforeAFrameIsDiscarded s [] (encodeFrame j err q) tail _ (decodeFrame_encodeFrame j err hp) hst hd hq
    (fun _ hj => absurd hj (Nat.not_lt_zero _))
  rwa [encodeFrame_length] at h

/-- After RECEIVE, `COMPLETE` rejects another device's frame, and posts that at once (R177, R178). -/
theorem internalMove_rejects_otherId {s : State} {j err : Byte} {q : List Byte} (hst : s.st = .complete)
    (hm : s.mode = .receive) (hp : q.length ≤ 253) (hb : s.frameBuf = encodeFrame j err q) (hij : s.expId ≠ j) :
    internalMove s = { s with
      settle := 0, st := .idle, done := true, result := .failure .invalidResponse s.expId .idMismatch } := by
  have hv : validate s.frameBuf s.expId = .failure .invalidResponse s.expId .idMismatch := by
    rw [hb, validate_frame (decodeFrame_encodeFrame j err hp)]
    exact judgeFrame_otherId hij.symm
  rw [internalMove_of_step (internalStep_complete hst), hv]
  exact finish_posts (by rw [hm, settleTicks_receive])

/-- In the mode RECEIVE four internal moves consume another device's frame at the head of the queue (R176). -/
theorem internalMoves_consumes_otherId {s : State} {j err : Byte} {q tail : List Byte} (hst : s.st = .awaitHeader)
    (hm : s.mode = .receive) (hd : s.elapsed < s.cfg.timeoutTicks) (hp : q.length ≤ 253)
    (hq : s.rxq = encodeFrame j err q ++ tail) (hij : s.expId ≠ j) :
    internalMoves 4 s = { s with
      rxq := tail, totalLen := BitVec.ofNat 9 (q.length + 6), frameBuf := encodeFrame j err q, settle := 0, st := .idle,
      done := true, result := .failure .invalidResponse s.expId .idMismatch } := by
  have hextract := internalMoves_extracts_encodeFrame hst hd hp hq
  have hreject := internalMove_rejects_otherId (s := internalMoves 3 s) (by rw [hextract]) (by rw [hextract, hm]) hp
    (by rw [hextract]) (by rw [hextract]; exact hij)
  rw [internalMoves_add 3 1, internalMoves, internalMoves, hreject, hextract]

/-- R8: an admissible deadline has not passed when it is armed. -/
theorem timeoutTicks_pos {p : Params} (h : p.admissible = true) : 0 < p.timeoutTicks := by
  simp only [Params.admissible, Bool.and_eq_true, decide_eq_true_eq] at h
  exact h.1

/-- Settles O55: RECEIVE arms the deadline and leaves the queue, and the four internal moves consume the frame at its
head. -/
theorem receiveConsumesAnotherDevicesReply : Obligations.ReceiveConsumesAnotherDevicesReply := by
  intro s i j err q tail rest hst hc hadm hi hij hp hq hmoves
  have hreceive := (eq_afterStep_of_step (receiveAwaitsWithoutFlush s _ i hmoves hst hc hi)).symm
  have hconsume := internalMoves_consumes_otherId (s := afterStep s) (by rw [hreceive]) (by rw [hreceive])
    (by rw [hreceive]; exact timeoutTicks_pos hadm) hp (by rw [hreceive]; exact hq) (by rw [hreceive]; exact hij)
  have hrun := runsTo_internalMoves (k := 4) (s := afterStep s) (rest := rest) (by rw [hreceive])
  rw [hconsume, hreceive] at hrun
  rw [runsTo_succ, hreceive, hst]
  exact hrun

end Sys2Proof.Machine
end

section
/-! PROOFS. Every command in progress ends with a posted result: the moves a state still needs, and how each move uses them up
(R183; O49, O58). -/

namespace Sys2Proof.Machine

/-! The moves that end a command. -/

/-- The longer settle delay (R245). -/
def maxSettle (p : Params) : Nat := max p.settleWriteTicks p.settleResetTicks

/-- What ends a settle delay of `k` ticks: these ticks, and the internal move that posts (R182). -/
def settlingMoves (k : Nat) : List Move := List.replicate k .tick ++ [.internal]

/-- What ends a command whose result is known next: the internal move that finds it, and the longer settle delay (R179). -/
def finishingMoves (p : Params) : List Move := .internal :: settlingMoves (maxSettle p)

/-- What ends a receive with `k` ticks to its deadline: these ticks, and the internal moves that time out and conclude (R131,
R142). -/
def receivingMoves (k : Nat) (p : Params) : List Move := List.replicate k .tick ++ .internal :: finishingMoves p

/-- The moves that suffice, in this order, to end the command in progress, by the state register (R183). -/
def movesToEnd (s : State) : List Move :=
  match s.st with
  | .idle => []
  | .awaitHeader | .awaitLength | .awaitPayload => receivingMoves (s.cfg.timeoutTicks - s.elapsed) s.cfg
  | .complete | .timedOut => finishingMoves s.cfg
  | .failed => [.internal]
  | .settling => settlingMoves s.settle

section
variable {s : State}

theorem movesToEnd_awaiting (h : s.st.awaiting = true) :
    movesToEnd s = receivingMoves (s.cfg.timeoutTicks - s.elapsed) s.cfg := by
  unfold movesToEnd
  cases hst : s.st <;> simp [hst, Phase.awaiting] at h ⊢

theorem movesToEnd_complete (h : s.st = .complete) : movesToEnd s = finishingMoves s.cfg := by
  simp only [movesToEnd, h]

theorem movesToEnd_timedOut (h : s.st = .timedOut) : movesToEnd s = finishingMoves s.cfg := by
  simp only [movesToEnd, h]

theorem movesToEnd_failed (h : s.st = .failed) : movesToEnd s = [.internal] := by
  simp only [movesToEnd, h]

theorem movesToEnd_settling (h : s.st = .settling) : movesToEnd s = settlingMoves s.settle := by
  simp only [movesToEnd, h]

/-- Before its deadline an awaiting state needs a tick first. -/
theorem movesToEnd_early (h : s.st.awaiting = true) (hd : s.elapsed < s.cfg.timeoutTicks) :
    movesToEnd s = .tick :: receivingMoves (s.cfg.timeoutTicks - (s.elapsed + 1)) s.cfg := by
  rw [movesToEnd_awaiting h, show s.cfg.timeoutTicks - s.elapsed = s.cfg.timeoutTicks - (s.elapsed + 1) + 1 by omega]
  rfl

/-- Past its deadline it needs the internal move that times out. -/
theorem movesToEnd_late (h : s.st.awaiting = true) (hd : s.cfg.timeoutTicks ≤ s.elapsed) :
    movesToEnd s = .internal :: finishingMoves s.cfg := by
  rw [movesToEnd_awaiting h, Nat.sub_eq_zero_of_le hd]
  rfl

/-- A settle delay in progress needs a tick first. -/
theorem movesToEnd_settling_pos (h : s.st = .settling) (hz : 0 < s.settle) :
    movesToEnd s = .tick :: settlingMoves (s.settle - 1) := by
  obtain ⟨k, hk⟩ := Nat.exists_eq_succ_of_ne_zero hz.ne'
  rw [movesToEnd_settling h, hk]
  rfl

theorem movesToEnd_settling_zero (h : s.st = .settling) (hz : s.settle = 0) : movesToEnd s = [.internal] := by
  rw [movesToEnd_settling h, hz]
  rfl

/-- A busy state that no tick changes needs an internal move first (R141). -/
theorem movesToEnd_not_ticking (h : s.st ≠ .idle) (ha : s.st.awaiting = false) (hz : s.st = .settling → s.settle = 0) :
    ∃ r, movesToEnd s = .internal :: r := by
  cases hst : s.st with
  | idle => exact absurd hst h
  | awaitHeader | awaitLength | awaitPayload => rw [hst] at ha; cases ha
  | complete => exact ⟨_, movesToEnd_complete hst⟩
  | timedOut => exact ⟨_, movesToEnd_timedOut hst⟩
  | failed => exact ⟨_, movesToEnd_failed hst⟩
  | settling => exact ⟨_, movesToEnd_settling_zero hst (hz hst)⟩

/-- A busy block without an internal step needs a tick first: the clock is what it waits for (R134, R137, R139, R182). -/
theorem movesToEnd_blocked (h : s.st ≠ .idle) (hb : internalStep s = none) : ∃ r, movesToEnd s = .tick :: r := by
  rcases (internalStep_eq_none_iff s).mp hb with hi | ⟨hst, hz⟩ | ⟨hd, hst⟩
  · exact absurd hi h
  · exact ⟨_, movesToEnd_settling_pos hst hz⟩
  · refine ⟨_, movesToEnd_early ?_ hd⟩
    rcases hst with ⟨hst, _⟩ | ⟨hst, _⟩ | ⟨hst, _⟩ <;> rw [hst] <;> rfl

/-- A busy state needs a tick or an internal move first. -/
theorem movesToEnd_head (h : s.st ≠ .idle) :
    ∃ m r, movesToEnd s = m :: r ∧ (m = .tick ∨ m = .internal) := by
  rcases tick_cases s with ⟨ha, _⟩ | ⟨hst, hz, _⟩ | ⟨ha, hz, _⟩
  · rcases Nat.lt_or_ge s.elapsed s.cfg.timeoutTicks with hd | hd
    · exact ⟨_, _, movesToEnd_early ha hd, .inl rfl⟩
    · exact ⟨_, _, movesToEnd_late ha hd, .inr rfl⟩
  · exact ⟨_, _, movesToEnd_settling_pos hst hz, .inl rfl⟩
  · obtain ⟨r, hr⟩ := movesToEnd_not_ticking h ha hz
    exact ⟨_, r, hr, .inr rfl⟩

theorem internal_mem_movesToEnd (h : s.st ≠ .idle) : .internal ∈ movesToEnd s := by
  unfold movesToEnd
  cases hst : s.st with
  | idle => exact absurd hst h
  | awaitHeader | awaitLength | awaitPayload => simp [receivingMoves]
  | complete | timedOut => simp [finishingMoves]
  | failed => simp
  | settling => simp [settlingMoves]

end

theorem settlingMoves_sublist {j k : Nat} (h : j ≤ k) : (settlingMoves j).Sublist (settlingMoves k) :=
  (List.replicate_sublist_replicate _ |>.mpr h).append_right _

theorem receivingMoves_sublist {j k : Nat} (h : j ≤ k) (p : Params) :
    (receivingMoves j p).Sublist (receivingMoves k p) :=
  (List.replicate_sublist_replicate _ |>.mpr h).append_right _

/-- A receive needs no fewer moves than a command whose result is known next. -/
theorem finishingMoves_sublist (k : Nat) (p : Params) : (finishingMoves p).Sublist (receivingMoves k p) :=
  (List.sublist_cons_self _ _).trans (List.sublist_append_right _ _)

theorem endingMoves_eq (p : Params) : endingMoves p = receivingMoves p.timeoutTicks p := by
  simp [endingMoves, receivingMoves, finishingMoves, settlingMoves, maxSettle]

/-- No state of the invariant needs more than `endingMoves`: its settle counter is in range (R245). -/
theorem movesToEnd_sublist_endingMoves {s : State} (hi : Inv s) : (movesToEnd s).Sublist (endingMoves s.cfg) := by
  rw [endingMoves_eq]
  have hfinish := finishingMoves_sublist s.cfg.timeoutTicks s.cfg
  have hsettle : ∀ k, k ≤ maxSettle s.cfg → (settlingMoves k).Sublist (receivingMoves s.cfg.timeoutTicks s.cfg) :=
    fun _ hk => ((settlingMoves_sublist hk).cons _).trans hfinish
  unfold movesToEnd
  cases s.st with
  | idle => exact List.nil_sublist _
  | awaitHeader | awaitLength | awaitPayload => exact receivingMoves_sublist (Nat.sub_le _ _) _
  | complete | timedOut => exact hfinish
  | failed => exact hsettle 0 (Nat.zero_le _)
  | settling => exact hsettle _ hi.settle_range

/-! One move of a run. -/

/-- From `s` the move `m` ends the command in `t`, or leaves it in progress and serves it if it was needed: whatever list of
moves was enough from `s` with `m` at its head, is enough from `t` without it. -/
def Advances (m : Move) (s t : State) : Prop :=
  ended t ∨ (t.st ≠ .idle ∧ ∀ ms, (movesToEnd s).Sublist (m :: ms) → (movesToEnd t).Sublist ms)

section
variable {s t : State} {m m' : Move} {r : List Move}

/-- The move needed first advances to a busy state that needs no more than the rest. -/
theorem advances_of_needed (ht : t.st ≠ .idle) (hm : movesToEnd s = m :: r) (h : (movesToEnd t).Sublist r) :
    Advances m s t :=
  .inr ⟨ht, fun _ hs => h.trans (List.cons_sublist_cons.mp (hm ▸ hs))⟩

/-- A move not needed first advances to a busy state that needs no more than before. -/
theorem advances_of_not_needed (ht : t.st ≠ .idle) (hm : movesToEnd s = m' :: r) (hne : m' ≠ m)
    (h : (movesToEnd t).Sublist (movesToEnd s)) : Advances m s t :=
  .inr ⟨ht, fun _ hs => h.trans (hm ▸ List.Sublist.of_cons_of_ne hne (hm ▸ hs))⟩

/-- A command or a byte is never needed. -/
theorem advances_of_other (hst : s.st ≠ .idle) (ht : t.st ≠ .idle) (htick : m ≠ .tick) (hint : m ≠ .internal)
    (h : (movesToEnd t).Sublist (movesToEnd s)) : Advances m s t := by
  obtain ⟨m', r, hm, rfl | rfl⟩ := movesToEnd_head hst
  · exact advances_of_not_needed ht hm htick.symm h
  · exact advances_of_not_needed ht hm hint.symm h

end

section
variable {s : State}

/-- A command advances a busy block: it is not taken, or it is DISCONNECT, after which one internal move is enough (R160,
R165, R166). -/
theorem offerOther_advances (hst : s.st ≠ .idle) (c : HostCmd) : Advances (.command c) s (offerOther c s) := by
  by_cases hc : c = .disconnect
  · subst hc
    rw [offerOther_disconnect_busy hst]
    refine advances_of_other hst (by simp) (by simp) (by simp) ?_
    rw [movesToEnd_failed rfl]
    exact List.singleton_sublist.mpr (internal_mem_movesToEnd hst)
  · rw [offerOther_busy hst hc]
    exact advances_of_other hst hst (by simp) (by simp) (List.Sublist.refl _)

theorem rxPush_advances (hst : s.st ≠ .idle) (b : Byte) : Advances (.rx b) s (rxPush b s) := by
  rcases rxPush_cases b s with ⟨_, h⟩ | ⟨_, _, h⟩ | ⟨_, _, h⟩ <;> rw [h] <;>
    exact advances_of_other hst hst (by simp) (by simp) (List.Sublist.refl _)

/-- A tick takes off the tick that a state needs first, if it needs one (R141). -/
theorem tick_advances (hst : s.st ≠ .idle) : Advances .tick s (tick s) := by
  rcases tick_cases s with ⟨ha, h⟩ | ⟨hs, hz, h⟩ | ⟨ha, hz, h⟩
  · rcases Nat.lt_or_ge s.elapsed s.cfg.timeoutTicks with hd | hd
    · rw [h, Nat.min_eq_left hd]
      refine advances_of_needed hst (movesToEnd_early ha hd) ?_
      rw [movesToEnd_awaiting (s := { s with elapsed := s.elapsed + 1 }) ha]
    · rw [h, Nat.min_eq_right (by omega)]
      refine advances_of_not_needed hst (movesToEnd_late ha hd) (by simp) ?_
      rw [movesToEnd_awaiting (s := { s with elapsed := s.cfg.timeoutTicks }) ha, movesToEnd_awaiting ha]
      exact receivingMoves_sublist (by simp) _
  · rw [h]
    refine advances_of_needed hst (movesToEnd_settling_pos hs hz) ?_
    rw [movesToEnd_settling (s := { s with settle := s.settle - 1 }) hs]
  · rw [h]
    obtain ⟨r, hr⟩ := movesToEnd_not_ticking hst ha hz
    exact advances_of_not_needed hst hr (by simp) (List.Sublist.refl _)

/-- `Finish` posts the result, or leaves a settle delay to wait for (R180). -/
theorem finish_ends_or_settles (s : State) :
    ended (finish s) ∨ ((finish s).st ≠ .idle ∧ (movesToEnd (finish s)).Sublist (settlingMoves (maxSettle s.cfg))) := by
  rcases finish_cases s with ⟨_, h⟩ | ⟨_, h⟩ <;> rw [h]
  · refine .inr ⟨by simp, ?_⟩
    rw [movesToEnd_settling rfl]
    exact settlingMoves_sublist (settleTicks_le _ _ _)
  · exact .inl ⟨rfl, rfl⟩

/-- While the deadline has not passed, progress to another awaiting state leaves the same moves needed. -/
theorem advances_of_progress {t : State} (ha : s.st.awaiting = true) (hd : s.elapsed < s.cfg.timeoutTicks)
    (ht : t.st.awaiting = true) (hcfg : t.cfg = s.cfg) (helapsed : t.elapsed = s.elapsed) :
    Advances .internal s t := by
  refine advances_of_not_needed (fun h => by rw [h] at ht; cases ht) (movesToEnd_early ha hd) (by simp) ?_
  rw [movesToEnd_awaiting ha, movesToEnd_awaiting ht, hcfg, helapsed]

/-- The internal move that finds a result is the one needed first (R142, R179). -/
theorem advances_of_finish {t : State} (hs : movesToEnd s = finishingMoves s.cfg) (hcfg : t.cfg = s.cfg) :
    Advances .internal s (finish t) := by
  rcases finish_ends_or_settles t with h | ⟨hst, hsub⟩
  · exact .inl h
  · exact advances_of_needed hst hs (hcfg ▸ hsub)

/-- An enabled internal step ends the command, or goes on to a state that the remaining moves serve. -/
theorem internalStep_advances {t : State} (h : internalStep s = some t) : Advances .internal s t := by
  rcases internalStep_cases h with ⟨ha, hd, rfl⟩ | ⟨hst, hd, _, _, rfl⟩ | ⟨hst, hd, _, _, rfl⟩ | ⟨hst, hd, _, rfl⟩ |
    ⟨hst, hd, _, rfl⟩ | ⟨hst, rfl⟩ | ⟨hst, rfl⟩ | ⟨_, rfl⟩ | ⟨_, _, rfl⟩
  · exact advances_of_needed (by simp) (movesToEnd_late ha hd) (List.Sublist.refl _)
  · exact advances_of_progress (by rw [hst]; rfl) hd rfl rfl rfl
  · exact advances_of_progress (by rw [hst]; rfl) hd (by rw [hst]; rfl) rfl rfl
  · exact advances_of_progress (by rw [hst]; rfl) hd rfl rfl rfl
  · have ha : s.st.awaiting = true := by rw [hst]; rfl
    refine advances_of_not_needed (by simp) (movesToEnd_early ha hd) (by simp) ?_
    rw [movesToEnd_awaiting ha, movesToEnd_complete rfl]
    exact finishingMoves_sublist _ _
  · exact advances_of_finish (movesToEnd_complete hst) rfl
  · exact advances_of_finish (movesToEnd_timedOut hst) rfl
  · exact .inl ⟨rfl, rfl⟩
  · exact .inl ⟨rfl, rfl⟩

/-- An internal move advances a busy block: a blocked one waits for a tick (R14). -/
theorem internalMove_advances (hst : s.st ≠ .idle) : Advances .internal s (internalMove s) := by
  rcases internalMove_cases s with h | ⟨hb, h⟩
  · exact internalStep_advances h
  · obtain ⟨r, hr⟩ := movesToEnd_blocked hst hb
    rw [h]
    exact advances_of_not_needed hst hr (by simp) (List.Sublist.refl _)

/-- Every move but reset advances a busy block. -/
theorem afterMove_advances (hst : s.st ≠ .idle) {m : Move} (hm : m ≠ .reset) : Advances m s (afterMove m s) := by
  cases m with
  | command c => exact offerOther_advances hst c
  | rx b => exact rxPush_advances hst b
  | tick => exact tick_advances hst
  | internal => exact internalMove_advances hst
  | reset => exact absurd rfl hm

end

/-- A run of moves that include, in order, those a busy state needs reaches the end of its command. By induction on the
moves: each one advances the block. -/
theorem ends_of_movesToEnd_sublist {s : State} {ms rest : List Move} (hst : s.st ≠ .idle) (hmoves : s.moves = ms ++ rest)
    (hreset : .reset ∉ ms) (hsub : (movesToEnd s).Sublist ms) : ∃ k t, k ≤ ms.length ∧ runsTo k s t ∧ ended t := by
  induction ms generalizing s with
  | nil => exact absurd (hsub.subset (internal_mem_movesToEnd hst)) List.not_mem_nil
  | cons m ms ih =>
    obtain ⟨hm, hreset⟩ := List.ne_and_not_mem_of_not_mem_cons hreset
    have hstep : afterStep s = afterMove m { s with moves := ms ++ rest } :=
      (eq_afterStep_of_step (step_move hmoves)).symm
    have hrest : (afterStep s).moves = ms ++ rest :=
      hstep ▸ (afterMove_cfg_moves m { s with moves := ms ++ rest }).2
    have hadvances : Advances m s (afterStep s) :=
      hstep ▸ afterMove_advances (s := { s with moves := ms ++ rest }) hst hm.symm
    rcases hadvances with hend | ⟨hbusy, hserves⟩
    · exact ⟨1, afterStep s, by simp, by simp [runsTo_succ], hend⟩
    · obtain ⟨k, t, hk, hrun, hend⟩ := ih hbusy hrest hreset (hserves ms hsub)
      exact ⟨k + 1, t, by simpa using hk, (runsTo_succ k s t).mpr hrun, hend⟩

/-- Settles O49: `endingMoves` includes what a state of the invariant needs. -/
theorem everyCommandEndsWithAResult : Obligations.EveryCommandEndsWithAResult :=
  fun _ _ _ hi hst hmoves hreset hsub =>
    ends_of_movesToEnd_sublist hst hmoves hreset ((movesToEnd_sublist_endingMoves hi).trans hsub)

/-! A silent environment. -/

/-- The internal steps a receive may take before its deadline: one for each byte the header search may discard, and one for
each state on the way to `COMPLETE` (R132 to R138). -/
def progressSteps (s : State) : Nat :=
  match s.st with
  | .awaitHeader => s.rxq.length + 2
  | .awaitLength => 1
  | _ => 0

/-- The steps that are enough to end a command in a silent environment: the moves it needs, and the steps before its
deadline. -/
def silentRank (s : State) : Nat := (movesToEnd s).length + progressSteps s

@[simp] theorem settlingMoves_length (k : Nat) : (settlingMoves k).length = k + 1 := by simp [settlingMoves]

@[simp] theorem finishingMoves_length (p : Params) : (finishingMoves p).length = maxSettle p + 2 := by
  simp [finishingMoves]

@[simp] theorem receivingMoves_length (k : Nat) (p : Params) :
    (receivingMoves k p).length = k + maxSettle p + 3 := by
  simp [receivingMoves]; omega

section
variable {s t : State}

/-- A move that is needed first, and leaves no more steps before the deadline, brings the end nearer. -/
theorem Advances.silentRank_lt {m : Move} {r : List Move} (h : Advances m s t) (hm : movesToEnd s = m :: r)
    (hp : progressSteps t ≤ progressSteps s) : ended t ∨ (t.st ≠ .idle ∧ silentRank t < silentRank s) := by
  refine h.imp_right fun ⟨hst, hserves⟩ => ⟨hst, ?_⟩
  have hlen := (hserves r (hm ▸ List.Sublist.refl _)).length_le
  rw [silentRank, silentRank, hm, List.length_cons]
  omega

theorem progressSteps_of_finish (s : State) : progressSteps (finish s) = 0 := by
  rcases finish_st s with h | h <;> simp only [progressSteps, h]

/-- An internal step brings the end of the command nearer. -/
theorem internalStep_silentRank_lt (h : internalStep s = some t) :
    ended t ∨ (t.st ≠ .idle ∧ silentRank t < silentRank s) := by
  have hadv := internalStep_advances h
  rcases internalStep_cases h with ⟨ha, hd, rfl⟩ | ⟨hst, hd, _, _, rfl⟩ | ⟨hst, hd, hl, _, rfl⟩ | ⟨hst, hd, _, rfl⟩ |
    ⟨hst, hd, _, rfl⟩ | ⟨hst, rfl⟩ | ⟨hst, rfl⟩ | ⟨_, rfl⟩ | ⟨_, _, rfl⟩
  · exact hadv.silentRank_lt (movesToEnd_late ha hd) (Nat.zero_le _)
  · exact .inr ⟨by simp, by simp [silentRank, movesToEnd, progressSteps, hst]⟩
  · exact .inr ⟨by simp [hst], by simp [silentRank, movesToEnd, progressSteps, hst]; omega⟩
  · exact .inr ⟨by simp, by simp [silentRank, movesToEnd, progressSteps, hst]⟩
  · exact .inr ⟨by simp, by simp [silentRank, movesToEnd, progressSteps, hst]⟩
  · exact hadv.silentRank_lt (movesToEnd_complete hst) (progressSteps_of_finish _ ▸ Nat.zero_le _)
  · exact hadv.silentRank_lt (movesToEnd_timedOut hst) (progressSteps_of_finish _ ▸ Nat.zero_le _)
  · exact .inl ⟨rfl, rfl⟩
  · exact .inl ⟨rfl, rfl⟩

theorem progressSteps_tick (s : State) : progressSteps (tick s) = progressSteps s := by
  rcases tick_cases s with ⟨_, h⟩ | ⟨_, _, h⟩ | ⟨_, _, h⟩ <;> rw [h] <;> rfl

/-- A step with no move listed brings the end of the command nearer: where no internal step applies, the tick is needed. -/
theorem quietMove_silentRank_lt (hst : s.st ≠ .idle) :
    ended (quietMove s) ∨ ((quietMove s).st ≠ .idle ∧ silentRank (quietMove s) < silentRank s) := by
  rcases quietMove_cases s with h | ⟨hb, h⟩
  · exact internalStep_silentRank_lt h
  · obtain ⟨r, hr⟩ := movesToEnd_blocked hst hb
    rw [h]
    exact (tick_advances hst).silentRank_lt hr (progressSteps_tick s).le

end

/-- In a silent environment a command ends within its rank, by induction on a bound of it. -/
theorem ends_of_silentRank_le {n : Nat} {s : State} (hst : s.st ≠ .idle) (hmoves : s.moves = [])
    (hrank : silentRank s ≤ n) : ∃ k t, k ≤ n ∧ runsTo k s t ∧ ended t := by
  induction n generalizing s with
  | zero =>
    have hpos := List.length_pos_of_mem (internal_mem_movesToEnd hst)
    rw [silentRank] at hrank
    omega
  | succ n ih =>
    have hstep : afterStep s = quietMove s := (eq_afterStep_of_step (step_quiet hmoves)).symm
    have hnil : (quietMove s).moves = [] := (quietMove_cfg_moves s).2.trans hmoves
    rcases quietMove_silentRank_lt hst with hend | ⟨hbusy, hlt⟩
    · exact ⟨1, quietMove s, by omega, by simp [runsTo_succ, hstep], hend⟩
    · obtain ⟨k, t, hk, hrun, hend⟩ := ih hbusy hnil (by omega)
      exact ⟨k + 1, t, by omega, (runsTo_succ k s t).mpr (hstep ▸ hrun), hend⟩

theorem progressSteps_le (s : State) : progressSteps s ≤ s.rxq.length + 2 := by
  unfold progressSteps
  split <;> omega

/-- Settles O58: a state of the invariant needs no more than `endingMoves`, and the queue bounds the steps before the
deadline. -/
theorem silentEnvironmentEndsEveryCommand : Obligations.SilentEnvironmentEndsEveryCommand := by
  intro s hi hst hmoves
  refine ends_of_silentRank_le hst hmoves ?_
  have hneeded := (movesToEnd_sublist_endingMoves hi).length_le
  have hprogress := progressSteps_le s
  rw [endingMoves_eq, receivingMoves_length, maxSettle] at hneeded
  rw [silentRank]
  omega

end Sys2Proof.Machine
end

section
/-! PROOFS. The two unicast instructions that the spec infers (R204, R205; O13), and a whole unicast exchange (R200;
O54): the request is sent, the reply is queued byte by byte, and the block extracts, validates and concludes it. -/

namespace Sys2Proof.Machine

/-- Settles O13: both are sent by TRANSACT. -/
theorem regWriteAndActionTransmitAndAwait : Obligations.RegWriteAndActionTransmitAndAwait :=
  fun _ id p hst hc hid hp =>
    ⟨exec_unicast (i := .regWrite id p) rfl hst hc hid hp, exec_unicast (i := .action id p) rfl hst hc hid hp⟩

/-! The request and the delivery of the reply. -/

/-- A TRANSACT offered to an idle block with an open transport runs R167's rule. -/
theorem step_transact {s : State} {id code : Byte} {p : List Byte} {rest : List Move}
    (hmoves : s.moves = .command (.transact id code p) :: rest) (hst : s.st = .idle) (hc : s.connected = true)
    (hid : id.toNat ≤ 253) (hcode : code ∈ unicastCodes) (hp : p.length ≤ 253) :
    step s = .next (runTransact id code p { s with moves := rest, done := false }) := by
  rw [step_move hmoves]
  exact congrArg _ (accept_of_check_passes hst
    ((checkTransact_connection hid hcode hp).trans (checkConnection_of_open hc)))

/-- The producer delivers `bs` into a queue that has room for it: every byte is appended, in order (R55). -/
theorem runsTo_rx {bs : List Byte} {s : State} {rest : List Move} (hc : s.connected = true)
    (hroom : ∀ cap, s.cfg.rxqCap = some cap → s.rxq.length + bs.length ≤ cap)
    (hmoves : s.moves = bs.map .rx ++ rest) :
    runsTo bs.length s { s with rxq := s.rxq ++ bs, moves := rest } := by
  induction bs generalizing s with
  | nil =>
    rw [List.length_nil, runsTo_zero, List.append_nil]
    exact congrArg (fun ms => { s with moves := ms }) hmoves
  | cons b bs ih =>
    simp only [List.length_cons] at hroom
    have hfirst := (eq_afterStep_of_step ((producerAppendsOneByte s _ b hmoves hc).1
      fun cap hcap => by have := hroom cap hcap; omega)).symm
    have hothers := ih (s := { s with rxq := s.rxq ++ [b], moves := bs.map .rx ++ rest }) hc
      (fun cap hcap => by have := hroom cap hcap; simp; omega) rfl
    rw [List.append_assoc] at hothers
    rw [List.length_cons, runsTo_succ, hfirst]
    exact hothers

/-! The reply. -/

/-- The result that carries the reply of device `e` with the parameters `q` and no error bit (R178, R184). -/
def replyResult (e : Byte) (q : List Byte) : Result :=
  { kind := .ok, id := e, reason := .none, errbits := 0,
    frame := some ⟨e, lenByte q.length, 0, q, checksum (frameBody e 0 q)⟩ }

/-- The expected device's good reply with the parameters `q` is extracted and concluded, and `tail` stays queued (R138,
R179). -/
def takeReply (q tail : List Byte) (s : State) : State :=
  conclude (replyResult s.expId q) { s with
    st := .complete, frameBuf := encodeFrame s.expId 0 q, totalLen := BitVec.ofNat 9 (q.length + 6), rxq := tail }

/-- Taking a reply neither reads nor writes the environment's moves. -/
theorem takeReply_withMoves (q tail : List Byte) (s : State) (ms : List Move) :
    takeReply q tail { s with moves := ms } = { takeReply q tail s with moves := ms } := by
  simp only [takeReply, conclude, finish_eq]

section
variable {s : State} {q tail : List Byte} {rest : List Move}

/-- Four internal moves take a good reply off the head of the queue (R178 to R180). -/
theorem internalMoves_takeReply (hst : s.st = .awaitHeader) (hd : s.elapsed < s.cfg.timeoutTicks) (hp : q.length ≤ 253)
    (hq : s.rxq = encodeFrame s.expId 0 q ++ tail) : internalMoves 4 s = takeReply q tail s := by
  rw [internalMoves_add 3 1, internalMoves_extracts_encodeFrame hst hd hp hq, internalMoves, internalMoves,
    internalMove_of_step (internalStep_complete rfl), validate_encodeFrame s.expId hp]
  rfl

/-- A good reply that is queued before the deadline is the result after four listed internal moves. -/
theorem runsTo_takeReply (hst : s.st = .awaitHeader) (hd : s.elapsed < s.cfg.timeoutTicks) (hp : q.length ≤ 253)
    (hq : s.rxq = encodeFrame s.expId 0 q ++ tail) (hmoves : s.moves = List.replicate 4 .internal ++ rest) :
    runsTo 4 s (takeReply q tail { s with moves := rest }) := by
  rw [takeReply_withMoves, ← internalMoves_takeReply hst hd hp hq]
  exact runsTo_internalMoves hmoves

/-- The same, with the bytes of the reply delivered first, into an empty queue that has room for them. -/
theorem runsTo_reply (hst : s.st = .awaitHeader) (hc : s.connected = true) (hd : s.elapsed < s.cfg.timeoutTicks)
    (hcap : ∀ cap, s.cfg.rxqCap = some cap → q.length + 6 ≤ cap) (hp : q.length ≤ 253) (hempty : s.rxq = [])
    (hmoves : s.moves = (encodeFrame s.expId 0 q).map .rx ++ (List.replicate 4 .internal ++ rest)) :
    runsTo (q.length + 6 + 4) s (takeReply q [] { s with moves := rest }) := by
  have hqueued := runsTo_rx hc (by simpa [hempty] using hcap) hmoves
  rw [hempty, List.nil_append, encodeFrame_length] at hqueued
  exact runsTo_add (j := q.length + 6) hqueued (runsTo_takeReply hst hd hp (List.append_nil _).symm rfl)

end

/-- Settles O54: the TRANSACT flushes the queue and arms the deadline, and the reply is then delivered and taken. -/
theorem transactReturnsTheDeviceReply : Obligations.TransactReturnsTheDeviceReply := by
  intro s id code p q rest hst hc hadm hcap hid hcode hp hq hmoves
  have hsent := (eq_afterStep_of_step (step_transact hmoves hst hc hid hcode hp)).symm
  rw [runsTo_succ, hsent]
  exact runsTo_reply rfl hc (timeoutTicks_pos hadm) hcap hq rfl rfl

end Sys2Proof.Machine
end

section
/-! PROOFS. No step stops (R240; O43), and what the validation of an extracted frame can find wrong with it (R234; O44). -/

namespace Sys2Proof.Machine

/-- Settles O43: every move, and the step with no move listed, answers a next state. -/
theorem everyStepHasANextState : Obligations.EveryStepHasANextState :=
  fun s => ⟨afterStep s, step_eq s⟩

/-! The reasons of a result. -/

/-- The one reason a decoded frame can still give is its addressee (R178). -/
theorem judgeFrame_reason (f : Frame) (e : Byte) :
    (judgeFrame f e).reason = .idMismatch ∨ (judgeFrame f e).reason = .none := by
  by_cases hid : f.id = e
  · by_cases herr : f.err = 0
    · exact .inr (congrArg Result.reason (judgeFrame_ok hid herr))
    · exact .inr (congrArg Result.reason (judgeFrame_errorBits hid herr))
  · exact .inl (congrArg Result.reason (judgeFrame_otherId hid))

/-- Six bytes or more that start with the header and are as long as they announce pass R105 to R107; the checksum and the
addressee are left. -/
theorem validate_reason_of_announced {b : List Byte} (e : Byte) (hsize : 6 ≤ b.length) (h0 : byteAt b 0 = 0xFF)
    (h1 : byteAt b 1 = 0xFF) (hlen : b.length = (byteAt b 3).toNat + 4) :
    (validate b e).reason = .idMismatch ∨ (validate b e).reason = .none := by
  by_cases hsum : byteAt b (b.length - 1) = checksum (slice b 2 (b.length - 2))
  · rw [validate_frame (decodeFrame_frame hsize h0 h1 hlen hsum)]
    exact judgeFrame_reason _ e
  · rw [validate_checksumError (decodeFrame_checksumError hsize h0 h1 hlen hsum)]
    exact .inr rfl

/-- What was extracted has the length it announces, so it is too short for `Decode` exactly when `LEN` is below 2 (R105,
R138). -/
theorem Inv.validate_frameBuf_reason {s : State} (hi : Inv s) (hst : s.st = .complete) :
    (validate s.frameBuf s.expId).reason ≠ .header ∧ (validate s.frameBuf s.expId).reason ≠ .length ∧
    ((validate s.frameBuf s.expId).reason = .short ↔ (byteAt s.frameBuf 3).toNat < 2) := by
  obtain ⟨hfour, hhead, hlen⟩ := hi.extracted hst
  obtain ⟨h0, h1⟩ := (take_two_eq_iff (by omega) _ _).mp hhead
  rw [Config.frameOverhead] at hlen
  by_cases hshort : (byteAt s.frameBuf 3).toNat < 2
  · rw [validate_short s.expId (by omega)]
    simp [Result.failure, hshort]
  · rcases validate_reason_of_announced s.expId (by omega) h0 h1 hlen with hr | hr <;> simp [hr, hshort]

/-- In `COMPLETE` the next internal step, listed or taken because no move is, records what `Validate` finds (R179). -/
theorem step_result_of_complete {s t : State} (hst : s.st = .complete)
    (hmoves : s.moves = [] ∨ ∃ rest, s.moves = .internal :: rest) (hstep : step s = .next t) :
    t.result = validate s.frameBuf s.expId := by
  obtain ⟨ms, hnext⟩ : ∃ ms, step s =
      .next (finish { s with moves := ms, result := validate s.frameBuf s.expId }) := by
    rcases hmoves with hquiet | ⟨rest, hlisted⟩
    · exact ⟨s.moves, (quietEnvironmentIsFair s hquiet).1 _ (internalStep_complete hst)⟩
    · exact ⟨rest, completeValidatesAndFinishes s rest hlisted hst⟩
  rw [Host.Outcome.next.inj (hstep.symm.trans hnext), finish_result]

/-- Settles O44: the result is that of `Validate` on the extracted bytes, which the invariant says are headed and as long as
they announce. -/
theorem extractedFramesFailOnlyAsShort : Obligations.ExtractedFramesFailOnlyAsShort := by
  intro s t hi hst hmoves hstep
  rw [step_result_of_complete hst hmoves hstep]
  exact hi.validate_frameBuf_reason hst

end Sys2Proof.Machine
end

section
/-! PROOFS. A settle delay in a silent environment (42_transaction.md R182; 70_reset_and_hazards.md R266; O38): each tick
counts it down, and the internal step at 0 ends it. -/

namespace Sys2Proof.Machine

/-- A step is a run of length 1. -/
theorem runsTo_one {s t : State} (h : step s = .next t) : runsTo 1 s t := by
  rw [runsTo_succ, runsTo_zero]
  exact (eq_afterStep_of_step h).symm

section
variable {s : State} (hst : s.st = .settling) (hmoves : s.moves = [])
include hst hmoves

/-- While the counter is positive the block is blocked, so a silent step is a tick. -/
theorem step_settling_pos (hk : 0 < s.settle) : step s = .next { s with settle := s.settle - 1 } :=
  tick_settling hst ▸ (quietEnvironmentIsFair s hmoves).2 ((internalStep_eq_none_iff s).mpr (.inr (.inl ⟨hst, hk⟩)))

/-- At 0 a silent step is the internal step that posts. -/
theorem step_settling_over (hz : s.settle = 0) : step s = .next { s with st := .idle, done := true } :=
  (quietEnvironmentIsFair s hmoves).1 _ (internalStep_settling_over hst hz)

/-- By induction on the number of ticks, none of which is past the end of the delay. -/
theorem runsTo_settling {j : Nat} (hj : j ≤ s.settle) : runsTo j s { s with settle := s.settle - j } := by
  induction j with
  | zero => exact (runsTo_zero _ _).mpr rfl
  | succ j ih =>
    have htick := step_settling_pos (s := { s with settle := s.settle - j }) hst hmoves (Nat.sub_pos_of_lt hj)
    exact runsTo_add (ih (Nat.le_of_succ_le hj)) (runsTo_one htick)

/-- The whole delay takes as many steps as the counter says, and one more to post. -/
theorem runsTo_settled : runsTo (s.settle + 1) s { s with settle := 0, st := .idle, done := true } := by
  have hticks := runsTo_settling hst hmoves le_rfl
  rw [Nat.sub_self] at hticks
  exact runsTo_add hticks (runsTo_one (step_settling_over (s := { s with settle := 0 }) hst hmoves rfl))

end

/-- Settles O38: the ticks of the delay, then the step that posts. -/
theorem settleDelayWithholdsDone : Obligations.SettleDelayWithholdsDone :=
  fun _ hst hmoves => ⟨fun _ => runsTo_settling hst hmoves, runsTo_settled hst hmoves⟩

end Sys2Proof.Machine
end

section
/-! PROOFS. The request frames the spec writes out (43_wire_instructions.md; O10): by the codec's two round trips, what a
frame decodes to is a question about the encoder. -/

namespace Sys2Proof

/-- A request frame decodes to the one well-formed instruction whose encoding it is. -/
theorem decode_eq_ok_iff_encode {b : List Byte} {i : Instr} :
    decode b = .ok i ↔ i.wellFormed = true ∧ encode i = b := by
  constructor
  · exact decodedRequestsAreEncodings b i
  · rintro ⟨hwf, rfl⟩
    exact decodeInvertsEncode i hwf

/-- Settles O10: each instruction is well-formed, and the frame the spec writes out is its encoding, computed in full with
length and checksum. -/
theorem writtenOutRequestsDecode : Obligations.WrittenOutRequestsDecode := by
  unfold Obligations.WrittenOutRequestsDecode
  simp only [decode_eq_ok_iff_encode]
  decide

end Sys2Proof
end
